-- ==== Sys2Proof/Word.lean ====
section
/-!
DEFINITION. The byte and the helpers every other file names values with: 00_scope.md rules R6 (a byte is 8 bits,
a register is 8 bits) and R9 (bit 0 is the least significant bit of every value).
-/

namespace Sys2Proof

/-- A byte: every host register, ROM byte, scratchpad byte and wire code is one (R6). -/
abbrev Byte := BitVec 8

/-- An offset of the host register space: the port `h_addr` is 5 bits wide (R11, R40). -/
abbrev Offset := BitVec 5

end Sys2Proof
end

