-- ==== Sys2Proof/Config.lean ====
section
/-!
DEFINITION. The parameters of 00_scope.md rule R5, and the free values of the model. A parameter the spec bounds from
below is its bound plus a constant without a body, so a claim holds for every value the spec allows; a
parameter the spec fixes at its nominal value (93_implementation_defined.md U2) is that value.
-/

namespace Sys2Proof.Config

/-- How much longer than its minimum the reset low time is (U1); not stated, so free. -/
opaque slackRstl : Nat
/-- How much longer than its minimum the presence delay is (U1). -/
opaque slackPds : Nat
/-- How much longer than its minimum the reset recovery is (U1). -/
opaque slackRsth : Nat
/-- How much longer than its minimum a slot is (U1). -/
opaque slackSlot : Nat
/-- How much longer than its minimum the recovery after a slot is (U1). -/
opaque slackRec : Nat
/-- How many clock cycles beyond the first make a microsecond (D4 leaves `CLK_PER_US` open; it is positive). -/
opaque slackClk : Nat

/-- `T_RSTL`, at least 480 µs (R5). -/
def tRstl : Nat := slackRstl + 480
/-- `T_PDS`, at least 75 µs (R5, C1). -/
def tPds : Nat := slackPds + 75
/-- `T_RSTH`, at least 480 µs and at least `T_PDS` (R5). -/
def tRsth : Nat := slackRsth + max 480 tPds
/-- `T_SLOT`, at least 60 µs (R5). -/
def tSlot : Nat := slackSlot + 60
/-- `T_REC`, at least 1 µs (R5, D7). -/
def tRec : Nat := slackRec + 1
/-- `T_W0L`, fixed at its nominal 60 µs (R5, U2). -/
def tW0l : Nat := 60
/-- `T_W1L`, fixed at its nominal 5 µs (R5, U2, C3). -/
def tW1l : Nat := 5
/-- `T_RL`, fixed at its nominal 1 µs (R5, U2, C3). -/
def tRl : Nat := 1
/-- `T_RDS`, fixed at its nominal 14 µs (R5, U2, D5). -/
def tRds : Nat := 14
/-- `CLK_PER_US`, positive (R5, D4). -/
def clkPerUs : Nat := slackClk + 1

/-- `SPAD_CRC_EN`: scratchpad CRC validation, fixed at build and left OPEN (R5, D10, U3). -/
opaque spadCrcEn : Bool

/-- `DS_FAMILY`, the family code U3 expects (R5, R69, D9). -/
def dsFamily : Byte := 0x28

/-- The byte of the n-th read of a register that holds any value (R9, R24, R44, R142). Nothing constrains it. -/
opaque freeByte : Nat → Byte

/-- The level of the released line at the n-th free draw (R23, R82, U7, U8): the environment's. Nothing constrains it. -/
opaque freeLevel : Nat → Bool

end Sys2Proof.Config
end

