-- ==== Sys2Proof/Syntax.lean ====
section
/-!
DEFINITION. The syntax: one constructor per row of spec/opcode_table.json. The first fifteen are the operations of
30_encoding.md rule R62; the last eleven are the wire command codes of rule R68. No constructor has a field: the
operands are not in the opcode (R60). The assembler lines of rule R72, which do carry operands, are `AsmLine`.
-/

namespace Sys2Proof

/-- The rows of the opcode table. -/
inductive Instr
  -- group 0: line primitives (40_bus_primitives.md)
  | driveLow | release | sample
  -- group 1: bit and byte transport (41_bit_byte_transport.md)
  | writeBit | readBit | writeByte | readByte
  -- group 2: bus session (42_bus_session.md)
  | reset | select | selectAny
  -- group 3: CRC8 (43_crc8.md)
  | crcUpdate
  -- group 4: DS18B20 (44_ds18b20.md)
  | readScratchpad | writeScratchpad | readTemperature | setResolution
  -- the wire command codes, network layer and then DS18B20 layer (30_encoding.md rule R68)
  | searchRom | readRom | matchRom | skipRom | alarmSearch
  | convertT | writeScratchpadCmd | readScratchpadCmd | copyScratchpad | recallEeprom | readPowerSupply
  deriving DecidableEq, Repr

/-- The operand forms of R61, and the table's fifth format, a wire command code. -/
inductive Form
  | n | a | ab | s | wire
  deriving DecidableEq, Repr

/-- Which form a row has (R61, R62; opcode_table.json "format"). -/
def Instr.form : Instr → Form
  | .driveLow | .release | .sample | .readBit | .readByte | .reset | .readScratchpad | .readTemperature => .n
  | .writeBit | .writeByte | .selectAny => .a
  | .select | .crcUpdate | .setResolution => .ab
  | .writeScratchpad => .s
  | .searchRom | .readRom | .matchRom | .skipRom | .alarmSearch | .convertT | .writeScratchpadCmd
  | .readScratchpadCmd | .copyScratchpad | .recallEeprom | .readPowerSupply => .wire

/-- One line of a host program in the notation of R72: a mnemonic with its operands, or the pseudo-operation
`SET_BUF i, v`. -/
inductive AsmLine
  | op (i : Instr) (args : List Byte)
  | setBuf (i : Nat) (v : Byte)
  deriving DecidableEq, Repr

end Sys2Proof
end

