-- ==== Sys2Proof/WellFormed.lean ====
section
/-!
DEFINITION. What makes a term of the syntax meaningful. An `Instr` has no field, so there is nothing in it to check;
the checks are on the assembler lines of 30_encoding.md rule R72, whose operand count is fixed by the form (R61) and
whose buffer index is below 9 (R14), and on a table word, which is 8 bits long (R60).
-/

namespace Sys2Proof

/-- How many operands a line of each form writes (R72). -/
def Form.operandCount : Form → Nat
  | .n | .s | .wire => 0
  | .a => 1
  | .ab => 2

/-- Every instruction is well formed: it has no field (R60). -/
def Instr.wellFormed (_ : Instr) : Bool := true

/-- A line has exactly its form's operands; `SET_BUF` names one of the nine buffer registers (R72, R14). -/
def AsmLine.wellFormed : AsmLine → Bool
  | .op i args => i.wellFormed && args.length == i.form.operandCount
  | .setBuf i _ => decide (i < 9)

/-- There is one instruction length, 8 bits, and a word fits in it (R60). -/
def wordWellFormed (nbits w : Nat) : Bool := nbits == 8 && decide (w < 256)

end Sys2Proof
end

