-- ==== Sys2Proof/Decode.lean ====
section
/-!
DEFINITION. The decoder, total on any bytes and rejecting by name, and after it the encoder. 30_encoding.md rules
R60 (a decoder compares all 8 bits), R62 (the fifteen opcodes), R68 (the eleven wire command codes), R70 (every other
opcode is reserved).
-/

namespace Sys2Proof

/-- Why bytes are no instruction. -/
inductive DecodeError
  /-- there is no byte to decode -/
  | noByte
  /-- the byte is neither an opcode of R62 nor a wire command code of R68 -/
  | reserved (b : Byte)
  deriving DecidableEq, Repr

/-- The opcode list of R62. -/
def opcodeRows : List (Byte × Instr) :=
  [(0x01, .driveLow), (0x02, .release), (0x03, .sample)]
  ++ [(0x10, .writeBit), (0x11, .readBit), (0x12, .writeByte), (0x13, .readByte)]
  ++ [(0x20, .reset), (0x21, .select), (0x22, .selectAny)]
  ++ [(0x30, .crcUpdate)]
  ++ [(0x40, .readScratchpad), (0x41, .writeScratchpad), (0x42, .readTemperature), (0x43, .setResolution)]

/-- The wire command codes of R68. -/
def wireRows : List (Byte × Instr) :=
  [(0xF0, .searchRom), (0x33, .readRom), (0x55, .matchRom), (0xCC, .skipRom), (0xEC, .alarmSearch)]
  ++ [(0x44, .convertT), (0x4E, .writeScratchpadCmd), (0xBE, .readScratchpadCmd), (0x48, .copyScratchpad)]
  ++ [(0xB8, .recallEeprom), (0xB4, .readPowerSupply)]

/-- The row of a table whose code is `b`: all 8 bits are compared (R60, mask 0xFF). -/
def lookupRow (rows : List (Byte × Instr)) (b : Byte) : Option Instr :=
  (rows.find? (fun r => r.1 == b)).map (·.2)

/-- The decoder of the `CMD` register: an opcode of R62, or none, which is a reserved opcode (R70). A wire command
code is not an opcode of the block (95_test_vectors.md V61). -/
def decodeOpcode (b : Byte) : Option Instr := lookupRow opcodeRows b

/-- The decoder of a program word: an opcode, or a wire command code. No byte is both. -/
def decodeByte (b : Byte) : Except DecodeError Instr :=
  match decodeOpcode b with
  | some i => .ok i
  | none =>
    match lookupRow wireRows b with
    | some i => .ok i
    | none => .error (.reserved b)

/-- Decode the first instruction of a list of bytes: one byte, and the rest of the list. -/
def decodeBytes : List Byte → Except DecodeError (Instr × List Byte)
  | [] => .error .noByte
  | b :: rest =>
    match decodeByte b with
    | .ok i => .ok (i, rest)
    | .error e => .error e

/-- The instruction of a word numbered as the opcode table numbers it. -/
def decodeTableWord (nbits w : Nat) : Option Instr :=
  if wordWellFormed nbits w then
    match decodeBytes [BitVec.ofNat 8 w] with
    | .ok (i, _) => some i
    | .error _ => none
  else none

/-- The word of an instruction: its opcode (R62) or its wire command code (R68). -/
def encode : Instr → Byte
  | .driveLow => 0x01
  | .release => 0x02
  | .sample => 0x03
  | .writeBit => 0x10
  | .readBit => 0x11
  | .writeByte => 0x12
  | .readByte => 0x13
  | .reset => 0x20
  | .select => 0x21
  | .selectAny => 0x22
  | .crcUpdate => 0x30
  | .readScratchpad => 0x40
  | .writeScratchpad => 0x41
  | .readTemperature => 0x42
  | .setResolution => 0x43
  | .searchRom => 0xF0
  | .readRom => 0x33
  | .matchRom => 0x55
  | .skipRom => 0xCC
  | .alarmSearch => 0xEC
  | .convertT => 0x44
  | .writeScratchpadCmd => 0x4E
  | .readScratchpadCmd => 0xBE
  | .copyScratchpad => 0x48
  | .recallEeprom => 0xB8
  | .readPowerSupply => 0xB4

/-- The unit group of an opcode, for reading only (R60). -/
def opcodeGroup (b : Byte) : BitVec 4 := b.extractLsb' 4 4

/-- The function of an opcode within its group, for reading only (R60). -/
def opcodeFunction (b : Byte) : BitVec 4 := b.extractLsb' 0 4

end Sys2Proof
end

