-- ==== Sys2Proof/Machine/State.lean ====
section
/-!
DEFINITION. The state of the block (10_state.md rule R10), the plain data of its sequencer, the environment and the
host as data, and the state right after reset (rule R24).
-/

namespace Sys2Proof.Machine

/-- Where the controller is: the `phase` register (R20). -/
inductive Phase
  | idle | resetPresence | romReadValidate | commandIssue | dataTransfer | direct
  deriving DecidableEq, Repr

/-- The failure causes (R141). They have no code and the host never sees them (R140). -/
inductive Cause
  | noPresence | romCrc | familyMismatch | scratchpadCrc
  deriving DecidableEq, Repr

/-- The alphabet of the line's trace (R9): `L`, `Z`, `W(n)`, `S=b`. -/
inductive LineAction
  | low | rel | wait (n : Nat) | sampled (b : Bool)
  deriving DecidableEq, Repr

/-- What a register holds that an operation, a failure or the reset input can leave unspecified: a byte, or what the spec
calls any value, of which each read is a free draw (R9, R24, R142). -/
inductive Content
  | held (b : Byte)
  | anyValue
  deriving DecidableEq, Repr

/-- Where a byte operand comes from: a constant of a procedure, a latch, or a buffer register (R63, R64). -/
inductive Src
  | lit (b : Byte) | argA | argB | buf (i : Fin 9)
  deriving DecidableEq, Repr

/-- The micro-actions of the sequencer: the line actions of R80, and the register transfers and checks that stand
between them in the pseudocode of 40_bus_primitives.md to 44_ds18b20.md. -/
inductive Act
  /-- `phase <- p` -/
  | enter (p : Phase)
  /-- `DriveLow()` -/
  | driveLow
  /-- `Release()` -/
  | release
  /-- `Sample()`, into the bit latch -/
  | sample
  /-- `Wait(n)` -/
  | wait (n : Nat)
  /-- the rest of a `Wait` that the timer is counting out -/
  | counting
  /-- the low time of a write slot, which depends on the bit (R90) -/
  | holdLow
  /-- the rest of a write slot and its recovery (R90) -/
  | restOfSlot
  /-- the bit to write is `a_l[0]` (R94) -/
  | bitFromA
  /-- the bit to write is `sr[0]` (R92) -/
  | bitFromSr
  /-- `sr <- x`, eight bits to go (R92) -/
  | loadByte (x : Src)
  /-- `sr <- 0x00`, eight bits to go (R93) -/
  | clearByte
  /-- `sr <- sr >> 1`, one bit fewer to go (R92) -/
  | shiftOut
  /-- the sampled bit enters `sr` at bit 7, one bit fewer to go (R93) -/
  | shiftIn
  /-- a transfer of n bytes begins (R18) -/
  | transfer (n : Fin 10)
  /-- one byte fewer to go (R18) -/
  | byteDone
  /-- `rom[i] <- sr` (R102) -/
  | storeRom (i : Fin 8)
  /-- `BUF[i] <- sr` (R121) -/
  | storeBuf (i : Fin 9)
  /-- `fail(NoPresence)` unless the presence sample was 0 (R100, R102) -/
  | checkPresence
  /-- the CRC validation of the ROM code: `fail(RomCrc)` unless the residue is 0x00 (R102) -/
  | checkRom
  /-- `fail(FamilyMismatch)` unless `rom[0]` is the family code (R102) -/
  | checkFamily (fam : Src)
  /-- the CRC validation of the scratchpad, when it is enabled (R121) -/
  | checkScratchpad
  /-- `RES0 <- zext_8(b)` (R85, R95) -/
  | resultBit
  /-- `RES0 <- sr` (R97) -/
  | resultByte
  /-- `RES0 <- crc8_update(a_l, b_l)` (R114) -/
  | resultCrc
  /-- `RES0 <- BUF[0]`, `RES1 <- BUF[1]` (R126) -/
  | resultTemperature
  /-- the fast path: `succeed()` if the resolution field is the operand already (R127) -/
  | succeedIfSame
  /-- the new resolution field goes into `BUF[4]` (R127) -/
  | setConfig
  /-- `succeed()` unless the persist operand is 1 (R127) -/
  | succeedUnlessPersist
  /-- `succeed()` (R9) -/
  | succeed
  deriving DecidableEq, Repr

/-- A step of the sequencer's program: a micro-action, or the one loop without a bound (R123, R148 (e)): `poll` issues
a read slot, `pollTest` looks at its bit. -/
inductive Micro
  | one (a : Act)
  | poll
  | pollTest
  deriving DecidableEq, Repr

/-- What the host does next: one access of the register space (R41, R42), the next word of its program issued and
waited for (R72), the wait of R72, nothing while the controller takes one step, or the reset input applied and removed
(R160). -/
inductive HostEvent
  | read (off : Offset)
  | write (off : Offset) (v : Byte)
  | run (word : Byte)
  /-- `repeat s <- HostRead(0x01) until s[0] == 0` (R72) -/
  | wait
  | pause
  | rst
  deriving DecidableEq, Repr

/-- The state. The first group is the spec's own (R10); the second is the model's. `BUSY` and `STATUS` are computed
from `phase` and `ok` (R16, R20), `CMD` holds nothing (R15), `dq_oe` is `oe` and `dq_o` is constantly 0 (R12). -/
structure State where
  /-- the line driver: true pulls the line low (R13) -/
  oe : Bool
  /-- `STATUS.OK` (R16, R21) -/
  ok : Bool
  /-- `ARG0` (R14) -/
  arg0 : Content
  /-- `ARG1` (R14) -/
  arg1 : Content
  /-- `RES0` (R14) -/
  res0 : Content
  /-- `RES1` (R14) -/
  res1 : Content
  /-- `BUF[0]` to `BUF[8]` (R14, R46) -/
  buf : Vector Content 9
  /-- `phase` (R20) -/
  phase : Phase
  /-- `op_l` (R18) -/
  opL : Byte
  /-- `a_l` (R18) -/
  aL : Byte
  /-- `b_l` (R18) -/
  bL : Byte
  /-- `sr` (R18) -/
  sr : Byte
  /-- `bitcnt` (R18) -/
  bitcnt : Nat
  /-- `bytecnt` (R18) -/
  bytecnt : Nat
  /-- `timer`, in microseconds (R18, R86) -/
  timer : Nat
  /-- `rom[0]` to `rom[7]` (R19, R45) -/
  rom : Vector Byte 8
  /-- `crc_acc` (R19) -/
  crcAcc : Byte
  /-- the port `h_rdata`: the byte the last host read returned (R11) -/
  hRdata : Byte
  /-- the bit of the slot in progress: the local values `b`, `s`, `v` of R90 to R100 -/
  bit : Bool
  /-- what the sequencer has still to do in the operation in progress -/
  todo : List Micro
  /-- the cause of the last failure, a ghost value that no access and no operation reads (D13, U20) -/
  cause : Option Cause
  /-- the environment: the levels it will answer to the next samples of the released line (R8, R23) -/
  script : List Bool
  /-- how many free levels have been drawn -/
  draws : Nat
  /-- how many free bytes have been drawn -/
  picks : Nat
  /-- what the host will do, in order -/
  inputs : List HostEvent
  /-- the line's trace, newest action first (R9) -/
  log : List LineAction
  deriving DecidableEq, Repr

/-- No step of this machine ends in a fault: the spec names no event that stops the block. A failure of an operation
is an ordinary outcome (R140), and a run that never ends is a run (R146). -/
inductive Fault
  deriving DecidableEq, Repr

/-- Why a step can have no meaning. -/
inductive Refusal
  /-- raised by `exec` alone, for an instruction that has no meaning yet; safe; no arm raises it now -/
  | notModelled (mnemonic : String)
  deriving DecidableEq, Repr

/-- The machine right after reset (R24, R160). The spec's values: `oe`, `ok`, `phase`. Every other register is
unspecified by the spec and holds zero here (DESIGN CHOICE, notes/assumptions/1.md). -/
def State.reset : State :=
  { oe := false, ok := false, arg0 := .held 0, arg1 := .held 0, res0 := .held 0, res1 := .held 0
    buf := Vector.replicate 9 (.held 0), phase := .idle, opL := 0, aL := 0, bL := 0, sr := 0, bitcnt := 0, bytecnt := 0
    timer := 0
    rom := Vector.replicate 8 0, crcAcc := 0, hRdata := 0, bit := false, todo := [], cause := none
    script := [], draws := 0, picks := 0, inputs := [], log := [] }

end Sys2Proof.Machine
end

