-- ==== Sys2Proof/Machine/Flags.lean ====
section
/-!
DEFINITION. The two flags and the status register: 10_state.md rules R16, R20, R21.
-/

namespace Sys2Proof.Machine

/-- `BUSY = (phase != Idle)` (R20). -/
def State.busy (s : State) : Bool := s.phase != .idle

/-- `STATUS`: bit 0 is `BUSY`, bit 1 is `OK`, bits 7:2 read as 0 (R16). -/
def State.status (s : State) : Byte :=
  (if s.busy then 0x01 else 0x00) ||| (if s.ok then 0x02 else 0x00)

/-- The pad output enable (R12). -/
def State.dqOe (s : State) : Bool := s.oe

/-- The pad output level, constantly 0: the block cannot drive the line high (R12). -/
def State.dqO (_ : State) : Bool := false

/-- The flags and the phase at the `CMD` write that issues an operation: `BUSY <- 1`, `OK <- 0` (R21, R43). -/
def flagsIssued (first : Phase) (s : State) : State := { s with phase := first, ok := false }

/-- `BUSY <- 0` together with `OK <- 1` (R21). -/
def flagsSucceeded (s : State) : State := { s with phase := .idle, ok := true }

/-- `BUSY <- 0` together with `OK <- 0` (R21). -/
def flagsFailed (s : State) : State := { s with phase := .idle, ok := false }

/-- A refused opcode sets `OK <- 0` and leaves `BUSY = 0` (R21, R70). -/
def flagsRefused (s : State) : State := { s with ok := false }

end Sys2Proof.Machine
end

