-- ==== Sys2Proof/Machine/Operands.lean ====
section
/-!
DEFINITION. Every operand form and every result assembly: 30_encoding.md rules R63 and R64, 44_ds18b20.md rules R128
and R129, 20_memory.md rules R47 and R48.
-/

namespace Sys2Proof.Machine

/-- The byte a read gives, when n free bytes have been drawn before it (R9). -/
def Content.read (n : Nat) : Content → Byte
  | .held b => b
  | .anyValue => Config.freeByte n

/-- How many free bytes a read draws: one if the register holds any value (R9). -/
def Content.drawn : Content → Nat
  | .held _ => 0
  | .anyValue => 1

/-- `ARG0` as the `CMD` write reads it (R43, R61). -/
def State.operandA (s : State) : Byte := s.arg0.read s.picks

/-- `ARG1` as the `CMD` write reads it, after `ARG0` (R43, R61). -/
def State.operandB (s : State) : Byte := s.arg1.read (s.picks + s.arg0.drawn)

/-- How many free bytes have been drawn after the `CMD` write has read `ARG0` and `ARG1` (R43). -/
def State.latchedPicks (s : State) : Nat := s.picks + s.arg0.drawn + s.arg1.drawn

/-- The nine bytes of `BUF` as a validation, a comparison or an update inside an operation reads them (R121, R127). There
they are the bytes the operation has just stored. -/
def State.image (s : State) : Vector Byte 9 := Vector.ofFn (fun i : Fin 9 => s.buf[i].read (s.picks + i))

/-- The value of a byte operand in a state: the operation reads the latches, not `ARG0` and `ARG1` (R55). -/
def Src.value : Src → State → Byte
  | .lit b, _ => b
  | .argA, s => s.aL
  | .argB, s => s.bL
  | .buf i, s => s.buf[i].read s.picks

/-- The free bytes drawn by the read of a byte operand. -/
def Src.drawn : Src → State → Nat
  | .lit _, _ | .argA, _ | .argB, _ => 0
  | .buf i, s => s.buf[i].drawn

/-- `value = a_l[0]`, the operand of `WRITE_BIT`; `a_l[7:1]` is ignored (R63). -/
def writeValue (a : Byte) : Bool := a.getLsbD 0

/-- `resolution = a_l[1:0]`, the operand of `SET_RESOLUTION`; `a_l[7:2]` is ignored (R63). -/
def resolutionOperand (a : Byte) : BitVec 2 := a.extractLsb' 0 2

/-- `persist_to_eeprom = b_l[0]`, the operand of `SET_RESOLUTION`; `b_l[7:1]` is ignored (R63). -/
def persistOperand (b : Byte) : Bool := b.getLsbD 0

/-- `zext_8` of one bit, the result of `SAMPLE` and `READ_BIT` (R85, R95). -/
def zextBit (b : Bool) : Byte := if b then 0x01 else 0x00

/-- The resolution field of a configuration byte: `(cfg >> 5) & 0x3` (R129). -/
def resolutionField (cfg : Byte) : BitVec 2 := cfg.extractLsb' 5 2

/-- The configuration byte with a new resolution field: `(cfg & 0x9F) | (r << 5)` (R127, R129). -/
def withResolution (cfg : Byte) (r : BitVec 2) : Byte := (cfg &&& 0x9F) ||| (r.setWidth 8 <<< 5)

/-- The raw temperature `{msb, lsb}` (R48, R128). -/
def temperature (msb lsb : Byte) : BitVec 16 := msb ++ lsb

/-- The raw temperature as an integer: two's complement (R128). -/
def temperatureInt (msb lsb : Byte) : Int := (temperature msb lsb).toInt

/-- The eight bits of a byte in the order of the wire: bit 0 first (R49). -/
def byteBits (x : Byte) : List Bool :=
  [x.getLsbD 0, x.getLsbD 1, x.getLsbD 2, x.getLsbD 3, x.getLsbD 4, x.getLsbD 5, x.getLsbD 6, x.getLsbD 7]

/-- The shift register after one bit has entered at bit 7: `{b, sr[7:1]}` (R93). -/
def shiftInBit (sr : Byte) (b : Bool) : Byte := (BitVec.ofBool b) ++ (sr.extractLsb' 1 7)

end Sys2Proof.Machine
end

