-- ==== Sys2Proof/Machine/Ops.lean ====
section
/-!
DEFINITION. The named operations over the line and the registers: the line actions of 40_bus_primitives.md rules R80 to
R86, the environment as an oracle (10_state.md rule R23), the end of an operation, and a failure,
which is this block's exception (60_exceptions.md rule R142). There is no return from a failure beside it: nothing was
saved and the block is in `Idle` (rule R145).
-/

namespace Sys2Proof.Machine

/-! The trace. Adjacent waits are merged and `W(0)` is dropped, so two traces that R80 calls the same are equal. -/

/-- Put `Wait(n)` on the trace (R80). -/
def pushWait (n : Nat) (log : List LineAction) : List LineAction :=
  match n, log with
  | 0, log => log
  | n + 1, .wait m :: log => .wait (m + (n + 1)) :: log
  | n + 1, log => .wait (n + 1) :: log

/-- The line's trace, oldest action first (R9). -/
def State.trace (s : State) : List LineAction := s.log.reverse

/-- The time a trace lasts: only waits take time (R80, R180). -/
def traceTime : List LineAction → Nat
  | [] => 0
  | .wait n :: rest => n + traceTime rest
  | _ :: rest => traceTime rest

/-- The clock cycles of a wait of n microseconds (R86). -/
def waitCycles (n : Nat) : Nat := n * Config.clkPerUs

/-! The line actions. -/

/-- `DriveLow()` (R81). -/
def driveLow (s : State) : State := { s with oe := true, log := .low :: s.log }

/-- `Release()` (R81). -/
def release (s : State) : State := { s with oe := false, log := .rel :: s.log }

/-- The line is released if it is not (R9, R142, R160). -/
def releaseIfLow (s : State) : State := if s.oe then release s else s

/-- A whole `Wait(n)`: `n` microseconds pass, `oe` and every register but the timer keep their value (R86). -/
def waitFor (n : Nat) (s : State) : State := { s with timer := 0, log := pushWait n s.log }

/-- One microsecond of a wait: the timer counts down (R18, R86). -/
def countDown (s : State) (left : Nat) : State := { s with timer := left, log := pushWait 1 s.log }

/-- The level of the line now: 0 while the block pulls it low, else the environment's answer (R82). -/
def lineLevel (s : State) : Bool :=
  if s.oe then false
  else
    match s.script with
    | b :: _ => b
    | [] => Config.freeLevel s.draws

/-- The environment after it has answered one sample; a sample taken while the line is driven low does not ask it. -/
def afterSample (s : State) : State :=
  if s.oe then s
  else
    match s.script with
    | _ :: more => { s with script := more }
    | [] => { s with draws := s.draws + 1 }

/-- `Sample()`: the level of the line, without altering the drive state (R82). It is kept in the bit latch. -/
def sampleLine (s : State) : State :=
  let b := lineLevel s
  let s := afterSample s
  { s with bit := b, log := .sampled b :: s.log }

/-- The low time of a write slot (R90). -/
def lowTime (v : Bool) : Nat := if v then Config.tW1l else Config.tW0l

/-- The wait after the release in a write slot: the rest of the slot and the recovery (R90, D6). -/
def restTime (v : Bool) : Nat := Config.tSlot - lowTime v + Config.tRec

/-- The wait after the sample in a read slot: the rest of the slot and the recovery (R91, D7). -/
def readRestTime : Nat := Config.tSlot - Config.tRl - Config.tRds + Config.tRec

/-! Register transfers between line actions. -/

/-- `sr <- x`, with eight bits to go (R92, R93). -/
def loadShift (x : Byte) (s : State) : State := { s with sr := x, bitcnt := 8 }

/-- `sr <- sr >> 1`, with one bit fewer to go (R92). -/
def shiftOut (s : State) : State := { s with sr := s.sr >>> 1, bitcnt := s.bitcnt - 1 }

/-- `sr <- {b, sr[7:1]}`, with one bit fewer to go (R93). -/
def shiftIn (s : State) : State := { s with sr := shiftInBit s.sr s.bit, bitcnt := s.bitcnt - 1 }

/-- `bytecnt` at the start of a transfer (R18). -/
def startTransfer (n : Nat) (s : State) : State := { s with bytecnt := n }

/-- `bytecnt` after a byte (R18). -/
def countByte (s : State) : State := { s with bytecnt := s.bytecnt - 1 }

/-! Unspecified values. -/

/-- `BUF` holds any value (R142). -/
def scrapBuf (s : State) : State := { s with buf := Vector.replicate 9 .anyValue }

/-- `RES0` and `RES1` hold any value (R142). -/
def scrapRes (s : State) : State := { s with res0 := .anyValue, res1 := .anyValue }

/-- The registers the operation writes on success hold any value after its failure; every other register keeps its
value (R64, R142). `READ_SCRATCHPAD` and `SET_RESOLUTION` write `BUF`, `READ_TEMPERATURE` writes `BUF`, `RES0`,
`RES1`; the other operations that can fail write none. -/
def scrapResults (s : State) : State :=
  if s.opL = encode .readTemperature then scrapRes (scrapBuf s)
  else if s.opL = encode .readScratchpad ∨ s.opL = encode .setResolution then scrapBuf s
  else s

/-! The end of an operation. -/

/-- `succeed()` (R9, R21). -/
def succeed (s : State) : State := flagsSucceeded s

/-- `fail(cause)`: the block's exception, taken by every failure (R142). The line is released, `OK` and `BUSY` are
cleared, the phase is `Idle`, the result registers hold any value. Nothing is saved and control goes nowhere. The
cause is kept as a ghost (D13). -/
def fail (c : Cause) (s : State) : State :=
  { scrapResults (flagsFailed (releaseIfLow s)) with cause := some c }

/-- Go on if a check holds, else fail. -/
def failUnless (ok : Bool) (c : Cause) (s : State) : State := if ok then s else fail c s

/-- The presence check: present when the sampled level is 0 (R100, R102). -/
def checkPresence (s : State) : State := failUnless (!s.bit) .noPresence s

/-- The ROM validation: `crc_acc` takes the residue, which must be 0x00 (R102, R113). -/
def checkRom (s : State) : State :=
  let r := residue s.rom.toList
  failUnless (r == 0x00) .romCrc { s with crcAcc := r }

/-- The family check (R102). -/
def checkFamily (fam : Byte) (s : State) : State := failUnless (s.rom[0] == fam) .familyMismatch s

/-- The scratchpad validation with the build parameter given: no fold and no check when it is off (R121). -/
def checkScratchpad (enabled : Bool) (s : State) : State :=
  if enabled then
    let r := residue s.image.toList
    failUnless (r == 0x00) .scratchpadCrc { s with crcAcc := r }
  else s

/-- `BUF[4]` takes the new resolution field (R127). -/
def setConfig (s : State) : State :=
  { s with buf := s.buf.set 4 (.held (withResolution s.image[4] (resolutionOperand s.aL))) }

/-- A refused opcode: `OK <- 0` and nothing else (R70, R143). -/
def refuse (s : State) : State := flagsRefused s

end Sys2Proof.Machine
end

