-- ==== Sys2Proof/Machine/Sequencer.lean ====
section
/-!
DEFINITION. The sequencer. A program is a list of micro-actions (60_exceptions.md rule R148). It runs at two grains:
`tick` is one step of the controller, with a wait counted out one microsecond a step, so that the host and the reset
input can act in the middle of an operation; `complete` runs the operation in progress to its end, which is what a host
that waits for `BUSY` to fall sees (30_encoding.md rule R72, 20_memory.md rules R51 and R54).
-/

namespace Sys2Proof.Machine

/-- The whole effect of one micro-action. -/
def act : Act → State → State
  | .enter p, s => { s with phase := p }
  | .driveLow, s => driveLow s
  | .release, s => release s
  | .sample, s => sampleLine s
  | .wait n, s => waitFor n s
  | .counting, s => waitFor s.timer s
  | .holdLow, s => waitFor (lowTime s.bit) s
  | .restOfSlot, s => waitFor (restTime s.bit) s
  | .bitFromA, s => { s with bit := writeValue s.aL }
  | .bitFromSr, s => { s with bit := s.sr.getLsbD 0 }
  | .loadByte x, s => loadShift (x.value s) { s with picks := s.picks + x.drawn s }
  | .clearByte, s => loadShift 0x00 s
  | .shiftOut, s => shiftOut s
  | .shiftIn, s => shiftIn s
  | .transfer n, s => startTransfer n s
  | .byteDone, s => countByte s
  | .storeRom i, s => { s with rom := s.rom.set i s.sr }
  | .storeBuf i, s => { s with buf := s.buf.set i (.held s.sr) }
  | .checkPresence, s => checkPresence s
  | .checkRom, s => checkRom s
  | .checkFamily fam, s => checkFamily (fam.value s) s
  | .checkScratchpad, s => checkScratchpad Config.spadCrcEn s
  | .resultBit, s => { s with res0 := .held (zextBit s.bit) }
  | .resultByte, s => { s with res0 := .held s.sr }
  | .resultCrc, s => { s with res0 := .held (crc8Update s.aL s.bL) }
  | .resultTemperature, s => { s with res0 := .held s.image[0], res1 := .held s.image[1] }
  | .succeedIfSame, s => if resolutionField s.image[4] = resolutionOperand s.aL then succeed s else s
  | .setConfig, s => setConfig s
  | .succeedUnlessPersist, s => if persistOperand s.bL then s else succeed s
  | .succeed, s => succeed s

/-! The procedures of 41_bit_byte_transport.md and 42_bus_session.md as programs. -/

/-- `write_bit(v)`, with `v` in the bit latch (R90). -/
def writeSlot : List Act := [.driveLow, .holdLow, .release, .restOfSlot]

/-- `read_bit()`, with its result in the bit latch (R91). -/
def readSlot : List Act :=
  [.driveLow, .wait Config.tRl, .release, .wait Config.tRds, .sample, .wait readRestTime]

/-- A program repeated n times. -/
def repeatActs : Nat → List Act → List Act
  | 0, _ => []
  | n + 1, p => p ++ repeatActs n p

/-- `write_byte(x)` (R92). -/
def writeByte (x : Src) : List Act :=
  .loadByte x :: repeatActs 8 (.bitFromSr :: (writeSlot ++ [.shiftOut]))

/-- `read_byte()`, with its result in `sr` (R93). -/
def readByte : List Act := .clearByte :: repeatActs 8 (readSlot ++ [.shiftIn])

/-- `reset()`, with the presence sample in the bit latch (R100). -/
def busReset : List Act :=
  [.enter .resetPresence, .driveLow, .wait Config.tRstl, .release, .wait Config.tPds, .sample,
    .wait (Config.tRsth - Config.tPds)]

/-- Send a single byte: a transfer of one (R18, R92). -/
def sendByte (x : Src) : List Act := .transfer 1 :: (writeByte x ++ [.byteDone])

/-- Read a single byte: a transfer of one (R18, R93). -/
def receiveByte : List Act := .transfer 1 :: (readByte ++ [.byteDone])

/-- Read bytes one after the other into the places listed. -/
def readInto (stores : List Act) : List Act := stores.flatMap (fun st => readByte ++ [st, .byteDone])

/-- `rom[i] <- read_byte()` for i = 0 to 7 (R102). -/
def readRomCode : List Act :=
  .transfer 8 :: readInto [.storeRom 0, .storeRom 1, .storeRom 2, .storeRom 3, .storeRom 4, .storeRom 5,
    .storeRom 6, .storeRom 7]

/-- `select(cmd, fam, any)`; the wildcard lifts the family check only (R102). -/
def select (cmd fam : Src) (any : Bool) : List Act :=
  busReset ++ [.checkPresence, .enter .romReadValidate] ++ sendByte (.lit (encode .readRom)) ++ readRomCode
    ++ [.checkRom] ++ (if any then [] else [.checkFamily fam]) ++ [.enter .commandIssue] ++ sendByte cmd

/-- A program without the unbounded loop, as a program of the sequencer. -/
def straight (p : List Act) : List Micro := p.map .one

/-! The issue of an operation. -/

/-- The `CMD` write that issues an operation, in one step: the latches, the flags, the first phase (R43). A write while
`BUSY = 1` is dropped (R15, R43, R143). -/
def issue (opcode : Byte) (first : Phase) (program : List Micro) (s : State) : State :=
  if s.busy then s
  else
    { flagsIssued first s with
      opL := opcode, aL := s.operandA, bL := s.operandB, picks := s.latchedPicks, todo := program, cause := none }

/-! One step of the controller. -/

/-- How long a micro-action waits, if it is a wait. -/
def waitLength : Act → State → Option Nat
  | .wait n, _ => some n
  | .holdLow, s => some (lowTime s.bit)
  | .restOfSlot, s => some (restTime s.bit)
  | _, _ => none

/-- One micro-action at the grain of one step: a wait loads the timer, which then counts down a microsecond a step. -/
def tickAct (a : Act) (rest : List Micro) (s : State) : State :=
  if a = .counting then
    match s.timer with
    | 0 => { s with todo := rest }
    | left + 1 => countDown s left
  else
    match waitLength a s with
    | some n => { s with timer := n, todo := .one .counting :: rest }
    | none =>
      let s' := act a s
      { s' with todo := if s'.busy then rest else [] }

/-- One step of the controller. In `Idle` it does nothing (R20). The poll issues read slots until a bit is 1 (R123). -/
def tick (s : State) : State :=
  if s.busy then
    match s.todo with
    | [] => s
    | .one a :: rest => tickAct a rest s
    | .poll :: rest => { s with todo := straight readSlot ++ .pollTest :: rest }
    | .pollTest :: rest => { s with todo := if s.bit then rest else .poll :: rest }
  else s

/-! The operation in progress run to its end. -/

/-- A straight program, to its end or to the end of the operation. -/
def runActs : List Act → State → State
  | [], s => s
  | a :: p, s => if (act a s).busy then runActs p (act a s) else act a s

/-- The poll, for as long as the environment's listed answers last: the state, and whether a 1 was read (R123). -/
def pollLoop : List Bool → State → State × Bool
  | [], s => (s, false)
  | _ :: more, s =>
    let s' := runActs readSlot s
    if s'.bit then (s', true) else pollLoop more s'

/-- A program, to the end of the operation. A poll whose listed answers hold no 1 leaves the operation in progress: the
block is still busy and its next steps go on polling, for ever if no 1 comes (R123, R146). -/
def run : List Micro → State → State
  | [], s => { s with todo := [] }
  | .one a :: rest, s => if (act a s).busy then run rest (act a s) else { act a s with todo := [] }
  | .poll :: rest, s =>
    let r := pollLoop s.script s
    if r.2 then run rest r.1 else { r.1 with todo := .poll :: rest }
  | .pollTest :: rest, s =>
    if s.bit then run rest s
    else
      let r := pollLoop s.script s
      if r.2 then run rest r.1 else { r.1 with todo := .poll :: rest }

/-- Run the operation in progress to its end. -/
def complete (s : State) : State := run s.todo s

/-- What a host line does that issues an operation and waits for it (R72): the operation is issued and run to its end,
or dropped while another is in progress. -/
def operate (start : State → State) (s : State) : State := if s.busy then s else complete (start s)

end Sys2Proof.Machine
end

