-- ==== Sys2Proof/Machine/HostPort.lean ====
section
/-!
DEFINITION. The host register space without its one access that has a side effect, the `CMD` write: 20_memory.md rules
R41, R42, R44, R50 to R52, and 10_state.md rules R14 to R17. The reset input: 70_reset_and_hazards.md rules R160, R161.
-/

namespace Sys2Proof.Machine

/-- The address map of R52. -/
inductive Reg
  | cmd | status | arg0 | arg1 | res0 | res1 | buf (i : Fin 9) | none
  deriving DecidableEq, Repr

/-- Which register an offset names; `none` where no register is (R17, R52). -/
def regAt (off : Offset) : Reg :=
  if off = 0x00 then .cmd
  else if off = 0x01 then .status
  else if off = 0x02 then .arg0
  else if off = 0x03 then .arg1
  else if off = 0x04 then .res0
  else if off = 0x05 then .res1
  else if h : 0x08 ≤ off.toNat ∧ off.toNat ≤ 0x10 then .buf ⟨off.toNat - 0x08, by omega⟩
  else .none

/-- The registers whose value is not defined while `BUSY = 1` (R44). -/
def Reg.isResult : Reg → Bool
  | .res0 | .res1 | .buf _ => true
  | .cmd | .status | .arg0 | .arg1 | .none => false

/-- What a register holds (R14 to R17): `CMD` and an offset without a register read as 0x00. -/
def Reg.stored : Reg → State → Content
  | .cmd, _ => .held 0x00
  | .status, s => .held s.status
  | .arg0, s => s.arg0
  | .arg1, s => s.arg1
  | .res0, s => s.res0
  | .res1, s => s.res1
  | .buf i, s => s.buf[i]
  | .none, _ => .held 0x00

/-- What the host reads in a register: while `BUSY = 1`, any value in `RES0`, `RES1` and `BUF[i]` (R44). -/
def Reg.content (r : Reg) (s : State) : Content := if s.busy && r.isResult then .anyValue else r.stored s

/-- `HostRead(off)`: the byte goes to `h_rdata`. It changes no register of the block (R41). A read of a register that holds
any value is a free draw, a new one at each read (R9). -/
def hostRead (off : Offset) (s : State) : State :=
  let c := (regAt off).content s
  { s with hRdata := c.read s.picks, picks := s.picks + c.drawn }

/-- `HostWrite(off, v)` of a register other than `CMD` (R42): ignored while `BUSY = 1`, and at any time for a register
the host cannot write and for an offset without a register. -/
def writeRegister (off : Offset) (v : Byte) (s : State) : State :=
  if s.busy then s
  else
    match regAt off with
    | .arg0 => { s with arg0 := .held v }
    | .arg1 => { s with arg1 := .held v }
    | .buf i => { s with buf := s.buf.set i (.held v) }
    | .cmd | .status | .res0 | .res1 | .none => s

/-- The reset input applied and removed: `oe`, `phase`, `BUSY`, `OK` take their reset values, whatever was in progress
is abandoned, and the registers the host can read hold any value (R24, R160, R161, U16). -/
def applyReset (s : State) : State :=
  { State.reset with
    arg0 := .anyValue, arg1 := .anyValue, res0 := .anyValue, res1 := .anyValue, buf := Vector.replicate 9 .anyValue
    hRdata := s.hRdata, script := s.script, draws := s.draws, picks := s.picks, inputs := s.inputs
    log := (releaseIfLow s).log }

end Sys2Proof.Machine
end

