-- ==== Sys2Proof/Machine/CrcUnit.lean ====
section
/-!
DEFINITION. The CRC8 generator as an operation: 43_crc8.md rule R114.
-/

namespace Sys2Proof.Machine

/-- `CRC_UPDATE` issued (R114). -/
def startCrcUpdate (s : State) : State :=
  issue (encode .crcUpdate) .direct (straight [.resultCrc, .succeed]) s

/-- `CRC_UPDATE` (R114): `RES0` takes `crc8_update(a_l, b_l)`; the line and `crc_acc` are untouched. -/
def execCrcUpdate (s : State) : Host.Outcome State Fault Refusal := .next (operate startCrcUpdate s)

end Sys2Proof.Machine
end

