-- ==== Sys2Proof/Machine/Ds18b20.lean ====
section
/-!
DEFINITION. The DS18B20 command sequencer U3: 44_ds18b20.md rules R120 to R127. Every command it sends goes through a
full selection with the family code 0x28 and no wildcard (R120).
-/

namespace Sys2Proof.Machine

/-- `select_ds(cmd)` (R120). -/
def selectDs (cmd : Instr) : List Act := select (.lit (encode cmd)) (.lit Config.dsFamily) false

/-- `BUF[i] <- read_byte()` for i = 0 to 8 (R121). -/
def readImage : List Act :=
  .transfer 9 :: readInto [.storeBuf 0, .storeBuf 1, .storeBuf 2, .storeBuf 3, .storeBuf 4, .storeBuf 5,
    .storeBuf 6, .storeBuf 7, .storeBuf 8]

/-- `read_scratchpad()` (R121). -/
def readScratchpad : List Act :=
  selectDs .readScratchpadCmd ++ [.enter .dataTransfer] ++ readImage ++ [.checkScratchpad]

/-- The three bytes of a scratchpad write: alarm-high, alarm-low, configuration (R122). -/
def writeImage : List Act :=
  .transfer 3 :: ([Src.buf 2, Src.buf 3, Src.buf 4].flatMap (fun x => writeByte x ++ [.byteDone]))

/-- `write_scratchpad()` (R122). -/
def writeScratchpad : List Act :=
  selectDs .writeScratchpadCmd ++ [.enter .dataTransfer] ++ writeImage

/-- `READ_SCRATCHPAD` issued (R124). -/
def startReadScratchpad (s : State) : State :=
  issue (encode .readScratchpad) .resetPresence (straight (readScratchpad ++ [.succeed])) s

/-- `READ_SCRATCHPAD` (R124): the nine bytes go to `BUF`. -/
def execReadScratchpad (s : State) : Host.Outcome State Fault Refusal := .next (operate startReadScratchpad s)

/-- `WRITE_SCRATCHPAD` issued (R125). -/
def startWriteScratchpad (s : State) : State :=
  issue (encode .writeScratchpad) .resetPresence (straight (writeScratchpad ++ [.succeed])) s

/-- `WRITE_SCRATCHPAD` (R125): `BUF[2]`, `BUF[3]`, `BUF[4]` go to the device. -/
def execWriteScratchpad (s : State) : Host.Outcome State Fault Refusal := .next (operate startWriteScratchpad s)

/-- `READ_TEMPERATURE` issued (R126). The loop of `wait_conversion()` (R123) is the program's `poll`. -/
def startReadTemperature (s : State) : State :=
  issue (encode .readTemperature) .resetPresence
    (straight (selectDs .convertT ++ [.enter .dataTransfer]) ++ .poll ::
      straight (readScratchpad ++ [.resultTemperature, .succeed])) s

/-- `READ_TEMPERATURE` (R126): convert, poll, read the scratchpad, the temperature to `RES1` and `RES0`. Where the
environment's listed answers end in the poll, the operation is left in progress (R123, R146). -/
def execReadTemperature (s : State) : Host.Outcome State Fault Refusal := .next (operate startReadTemperature s)

/-- `SET_RESOLUTION` issued (R127). -/
def startSetResolution (s : State) : State :=
  issue (encode .setResolution) .resetPresence
    (straight (readScratchpad ++ [.succeedIfSame, .setConfig] ++ writeScratchpad ++ [.succeedUnlessPersist]
      ++ selectDs .copyScratchpad ++ [.succeed])) s

/-- `SET_RESOLUTION` (R127): read, compare, and on a change write and, if asked, copy to EEPROM. -/
def execSetResolution (s : State) : Host.Outcome State Fault Refusal := .next (operate startSetResolution s)

end Sys2Proof.Machine
end

