-- ==== Sys2Proof/Machine/Line.lean ====
section
/-!
DEFINITION. The line primitives as operations: 40_bus_primitives.md rules R83 to R85. Of each operation: its program, its
issue (`start…`, the `CMD` write of R43) and its meaning (`exec…`: issued and waited for, R72).
-/

namespace Sys2Proof.Machine

/-- `DRIVE_LOW` issued (R83). -/
def startDriveLow (s : State) : State :=
  issue (encode .driveLow) .direct (straight [.driveLow, .succeed]) s

/-- `DRIVE_LOW` (R83): the line is pulled low and stays low. -/
def execDriveLow (s : State) : Host.Outcome State Fault Refusal := .next (operate startDriveLow s)

/-- `RELEASE` issued (R84). -/
def startRelease (s : State) : State :=
  issue (encode .release) .direct (straight [.release, .succeed]) s

/-- `RELEASE` (R84): the line is let go. -/
def execRelease (s : State) : Host.Outcome State Fault Refusal := .next (operate startRelease s)

/-- `SAMPLE` issued (R85). -/
def startSample (s : State) : State :=
  issue (encode .sample) .direct (straight [.sample, .resultBit, .succeed]) s

/-- `SAMPLE` (R85): the level of the line goes to `RES0`, and `oe` is not changed. -/
def execSample (s : State) : Host.Outcome State Fault Refusal := .next (operate startSample s)

end Sys2Proof.Machine
end

