-- ==== Sys2Proof/Machine/Session.lean ====
section
/-!
DEFINITION. The bus session as operations: 42_bus_session.md rules R103 to R105.
-/

namespace Sys2Proof.Machine

/-- `RESET` issued (R103). -/
def startReset (s : State) : State :=
  issue (encode .reset) .resetPresence (straight (busReset ++ [.checkPresence, .succeed])) s

/-- `RESET` (R103): the reset pulse; `OK` is the presence of a device. -/
def execReset (s : State) : Host.Outcome State Fault Refusal := .next (operate startReset s)

/-- `SELECT` issued (R104). -/
def startSelect (s : State) : State :=
  issue (encode .select) .resetPresence (straight (select .argA .argB false ++ [.succeed])) s

/-- `SELECT` (R104): a selection with `cmd = a_l` and `expected_family = b_l`. -/
def execSelect (s : State) : Host.Outcome State Fault Refusal := .next (operate startSelect s)

/-- `SELECT_ANY` issued (R105). -/
def startSelectAny (s : State) : State :=
  issue (encode .selectAny) .resetPresence (straight (select .argA (.lit 0x00) true ++ [.succeed])) s

/-- `SELECT_ANY` (R105): a selection with `cmd = a_l` and the wildcard. -/
def execSelectAny (s : State) : Host.Outcome State Fault Refusal := .next (operate startSelectAny s)

end Sys2Proof.Machine
end

