-- ==== Sys2Proof/Machine/Transport.lean ====
section
/-!
DEFINITION. The bit and byte transport as operations: 41_bit_byte_transport.md rules R94 to R97. None of them can fail
(R99).
-/

namespace Sys2Proof.Machine

/-- `WRITE_BIT` issued (R94). -/
def startWriteBit (s : State) : State :=
  issue (encode .writeBit) .direct (straight ([.bitFromA] ++ writeSlot ++ [.succeed])) s

/-- `WRITE_BIT` (R94): one write slot for `a_l[0]`. -/
def execWriteBit (s : State) : Host.Outcome State Fault Refusal := .next (operate startWriteBit s)

/-- `READ_BIT` issued (R95). -/
def startReadBit (s : State) : State :=
  issue (encode .readBit) .direct (straight (readSlot ++ [.resultBit, .succeed])) s

/-- `READ_BIT` (R95): one read slot, its bit to `RES0`. -/
def execReadBit (s : State) : Host.Outcome State Fault Refusal := .next (operate startReadBit s)

/-- `WRITE_BYTE` issued (R96). -/
def startWriteByte (s : State) : State :=
  issue (encode .writeByte) .direct (straight (sendByte .argA ++ [.succeed])) s

/-- `WRITE_BYTE` (R96): eight write slots for `a_l`, bit 0 first. -/
def execWriteByte (s : State) : Host.Outcome State Fault Refusal := .next (operate startWriteByte s)

/-- `READ_BYTE` issued (R97). -/
def startReadByte (s : State) : State :=
  issue (encode .readByte) .direct (straight (receiveByte ++ [.resultByte, .succeed])) s

/-- `READ_BYTE` (R97): eight read slots, the first bit to `RES0[0]`. -/
def execReadByte (s : State) : Host.Outcome State Fault Refusal := .next (operate startReadByte s)

end Sys2Proof.Machine
end

