-- ==== Sys2Proof/Machine/Wire.lean ====
section
/-!
DEFINITION. The eleven wire command codes on their own. The host puts a code on the line as the operand of `WRITE_BYTE`, and
the block gives it no special treatment (30_encoding.md rules R68, R71). So the meaning of a code is the host line
`WRITE_BYTE code` of R72: the code is written to `ARG0` and `WRITE_BYTE` is issued and waited for
(notes/assumptions/5.md). What the device does with the code is the environment's business (00_scope.md rule R4 (g));
the data phase the block adds to a code in its own sequencers (R67) stands in those.
-/

namespace Sys2Proof.Machine

/-- `WRITE_BYTE code` issued: `HostWrite(0x02, code)`, then the `CMD` write (R72). -/
def startWire (code : Byte) (s : State) : State := startWriteByte (writeRegister 0x02 code s)

/-- Search ROM, 0xF0 (R68). -/
def execSearchRom (s : State) : Host.Outcome State Fault Refusal := .next (operate (startWire (encode .searchRom)) s)

/-- Read ROM, 0x33 (R68). -/
def execReadRom (s : State) : Host.Outcome State Fault Refusal := .next (operate (startWire (encode .readRom)) s)

/-- Match ROM, 0x55 (R68). -/
def execMatchRom (s : State) : Host.Outcome State Fault Refusal := .next (operate (startWire (encode .matchRom)) s)

/-- Skip ROM, 0xCC (R68). -/
def execSkipRom (s : State) : Host.Outcome State Fault Refusal := .next (operate (startWire (encode .skipRom)) s)

/-- Alarm Search, 0xEC (R68). -/
def execAlarmSearch (s : State) : Host.Outcome State Fault Refusal :=
  .next (operate (startWire (encode .alarmSearch)) s)

/-- Convert Temperature, 0x44 (R68). -/
def execConvertT (s : State) : Host.Outcome State Fault Refusal := .next (operate (startWire (encode .convertT)) s)

/-- Write Scratchpad, 0x4E (R68). -/
def execWriteScratchpadCmd (s : State) : Host.Outcome State Fault Refusal :=
  .next (operate (startWire (encode .writeScratchpadCmd)) s)

/-- Read Scratchpad, 0xBE (R68). -/
def execReadScratchpadCmd (s : State) : Host.Outcome State Fault Refusal :=
  .next (operate (startWire (encode .readScratchpadCmd)) s)

/-- Copy Scratchpad, 0x48 (R68). -/
def execCopyScratchpad (s : State) : Host.Outcome State Fault Refusal :=
  .next (operate (startWire (encode .copyScratchpad)) s)

/-- Recall EEPROM, 0xB8 (R68). -/
def execRecallEeprom (s : State) : Host.Outcome State Fault Refusal :=
  .next (operate (startWire (encode .recallEeprom)) s)

/-- Read Power Supply, 0xB4 (R68). -/
def execReadPowerSupply (s : State) : Host.Outcome State Fault Refusal :=
  .next (operate (startWire (encode .readPowerSupply)) s)

end Sys2Proof.Machine
end

