-- ==== Sys2Proof/Machine/Issue.lean ====
section
/-!
DEFINITION. The `CMD` write as a bare host access, which issues an operation and does not wait for it (20_memory.md rule
R43); the host's other events; the fetch of the next program word; and the assembler of 30_encoding.md rule R72.
-/

namespace Sys2Proof.Machine

/-- The issue of an instruction: its program, its first phase, its opcode. -/
def startOf : Instr → State → State
  | .driveLow => startDriveLow
  | .release => startRelease
  | .sample => startSample
  | .writeBit => startWriteBit
  | .readBit => startReadBit
  | .writeByte => startWriteByte
  | .readByte => startReadByte
  | .reset => startReset
  | .select => startSelect
  | .selectAny => startSelectAny
  | .crcUpdate => startCrcUpdate
  | .readScratchpad => startReadScratchpad
  | .writeScratchpad => startWriteScratchpad
  | .readTemperature => startReadTemperature
  | .setResolution => startSetResolution
  | .searchRom => startWire (encode .searchRom)
  | .readRom => startWire (encode .readRom)
  | .matchRom => startWire (encode .matchRom)
  | .skipRom => startWire (encode .skipRom)
  | .alarmSearch => startWire (encode .alarmSearch)
  | .convertT => startWire (encode .convertT)
  | .writeScratchpadCmd => startWire (encode .writeScratchpadCmd)
  | .readScratchpadCmd => startWire (encode .readScratchpadCmd)
  | .copyScratchpad => startWire (encode .copyScratchpad)
  | .recallEeprom => startWire (encode .recallEeprom)
  | .readPowerSupply => startWire (encode .readPowerSupply)

/-- `HostWrite(0x00, c)` (R43): a defined opcode issues its operation, a reserved one is refused (R70), and while
`BUSY = 1` the write is dropped. -/
def writeCmd (c : Byte) (s : State) : State :=
  if s.busy then s
  else
    match decodeOpcode c with
    | some i => startOf i s
    | none => refuse s

/-- `HostWrite(off, v)` (R42, R43). -/
def hostWrite (off : Offset) (v : Byte) (s : State) : State :=
  if off = 0x00 then writeCmd v s else writeRegister off v s

/-- A program word that is no instruction: refused, or dropped while `BUSY = 1` (R43, R70, R143). -/
def refuseWord (s : State) : State := if s.busy then s else refuse s

/-- The wait of R72: the host reads `STATUS` and stops waiting if `BUSY` reads 0; else the controller takes a step and the
host reads again. -/
def waitStep (rest : List HostEvent) (s : State) : State :=
  if s.busy then tick (hostRead 0x01 s) else { hostRead 0x01 s with inputs := rest }

/-- The next program word, and the state with it taken from the host's list; the wait for its operation is left (R72). -/
def fetch (s : State) : Option (Byte × State) :=
  match s.inputs with
  | .run w :: rest => some (w, { s with inputs := .wait :: rest })
  | _ => none

/-- A step in which the host issues no program word: it makes an access, applies reset, or leaves the controller to
take one step (R8, R53). -/
def hostStep (s : State) : State :=
  match s.inputs with
  | .read off :: rest => hostRead off { s with inputs := rest }
  | .write off v :: rest => hostWrite off v { s with inputs := rest }
  | .rst :: rest => applyReset { s with inputs := rest }
  | .wait :: rest => waitStep rest s
  | .pause :: rest => tick { s with inputs := rest }
  | .run _ :: _ => s
  | [] => tick s

/-- The host's accesses a line of a program stands for (R72); a line that is not well formed stands for none. -/
def lineEvents : AsmLine → List HostEvent
  | .op i args =>
    match i.form, args with
    | .n, [] | .s, [] => [.write 0x00 (encode i), .wait]
    | .a, [a] => [.write 0x02 a, .write 0x00 (encode i), .wait]
    | .ab, [a, b] => [.write 0x02 a, .write 0x03 b, .write 0x00 (encode i), .wait]
    | .wire, [] => [.write 0x02 (encode i), .write 0x00 (encode .writeByte), .wait]
    | _, _ => []
  | .setBuf i v => if i < 9 then [.write (BitVec.ofNat 5 (0x08 + i)) v] else []

end Sys2Proof.Machine
end

