-- ==== Sys2Proof/Machine/Dispatch.lean ====
section
/-!
DEFINITION. One arm per instruction: the meaning of each row of the opcode table.
-/

namespace Sys2Proof.Machine

def exec (i : Instr) (s : State) : Host.Outcome State Fault Refusal :=
  match i with
  | .driveLow => Sys2Proof.Machine.execDriveLow s
  | .release => Sys2Proof.Machine.execRelease s
  | .sample => Sys2Proof.Machine.execSample s
  | .writeBit => Sys2Proof.Machine.execWriteBit s
  | .readBit => Sys2Proof.Machine.execReadBit s
  | .writeByte => Sys2Proof.Machine.execWriteByte s
  | .readByte => Sys2Proof.Machine.execReadByte s
  | .reset => Sys2Proof.Machine.execReset s
  | .select => Sys2Proof.Machine.execSelect s
  | .selectAny => Sys2Proof.Machine.execSelectAny s
  | .crcUpdate => Sys2Proof.Machine.execCrcUpdate s
  | .readScratchpad => Sys2Proof.Machine.execReadScratchpad s
  | .writeScratchpad => Sys2Proof.Machine.execWriteScratchpad s
  | .readTemperature => Sys2Proof.Machine.execReadTemperature s
  | .setResolution => Sys2Proof.Machine.execSetResolution s
  | .searchRom => Sys2Proof.Machine.execSearchRom s
  | .readRom => Sys2Proof.Machine.execReadRom s
  | .matchRom => Sys2Proof.Machine.execMatchRom s
  | .skipRom => Sys2Proof.Machine.execSkipRom s
  | .alarmSearch => Sys2Proof.Machine.execAlarmSearch s
  | .convertT => Sys2Proof.Machine.execConvertT s
  | .writeScratchpadCmd => Sys2Proof.Machine.execWriteScratchpadCmd s
  | .readScratchpadCmd => Sys2Proof.Machine.execReadScratchpadCmd s
  | .copyScratchpad => Sys2Proof.Machine.execCopyScratchpad s
  | .recallEeprom => Sys2Proof.Machine.execRecallEeprom s
  | .readPowerSupply => Sys2Proof.Machine.execReadPowerSupply s

end Sys2Proof.Machine
end

