-- ==== Sys2Proof/Machine/Step.lean ====
section
/-!
DEFINITION. One step of the machine: the host's next event, or one step of the controller (00_scope.md rule R8).
-/

namespace Sys2Proof.Machine

/-- One step. A program word is decoded and runs as its instruction; a reserved word is refused; every other event is
an access of the host, the reset input, or one step of the controller. -/
def step (s : State) : Host.Outcome State Fault Refusal :=
  match fetch s with
  | some (w, s') =>
    match decodeByte w with
    | .ok i => exec i s'
    | .error _ => .next (refuseWord s')
  | none => .next (hostStep s)

/-- The word as the host's next program word: the block fetches no program of its own (R7), its host issues one
(notes/assumptions/6.md). -/
def State.withFetchWord (s : State) (_nbits w : Nat) : State :=
  { s with inputs := .run (BitVec.ofNat 8 w) :: s.inputs }

end Sys2Proof.Machine
end

