-- ==== Sys2Proof/Safety.lean ====
section
/-!
DEFINITION. The terms the claims are stated in: the traces the spec writes out for its procedures (00_scope.md rule R9,
95_test_vectors.md conventions), what a frame leaves unchanged, and the invariant of a safe run.
-/

namespace Sys2Proof.Machine

/-! Traces, oldest action first. -/

/-- `W(n)`, and nothing for `W(0)` (R80). -/
def waitTrace (n : Nat) : List LineAction := if n = 0 then [] else [.wait n]

/-- The trace of `write_bit(v)` (R90). -/
def writeSlotTrace (v : Bool) : List LineAction := [.low, .wait (lowTime v), .rel, .wait (restTime v)]

/-- The trace of `read_bit()` that samples `b` (R91). -/
def readSlotTrace (b : Bool) : List LineAction :=
  [.low, .wait Config.tRl, .rel, .wait Config.tRds, .sampled b, .wait readRestTime]

/-- The trace of `write_byte(x)`: `WB(x)` (R92). -/
def writeByteTrace (x : Byte) : List LineAction := (byteBits x).flatMap writeSlotTrace

/-- The trace of `read_byte()` that returns `x`: `RB(x)` (R93). -/
def readByteTrace (x : Byte) : List LineAction := (byteBits x).flatMap readSlotTrace

/-- The trace of `reset()` that samples `b`: `RST(b)` (R100). -/
def resetTrace (b : Bool) : List LineAction :=
  [.low, .wait Config.tRstl, .rel, .wait Config.tPds, .sampled b] ++ waitTrace (Config.tRsth - Config.tPds)

/-- The trace of a selection up to and with the ROM bytes (R102). -/
def romTrace (rom : Vector Byte 8) : List LineAction :=
  resetTrace false ++ writeByteTrace 0x33 ++ rom.toList.flatMap readByteTrace

/-- The trace of a selection that succeeds: `SEL(cmd)` (R102). -/
def selectTrace (rom : Vector Byte 8) (cmd : Byte) : List LineAction := romTrace rom ++ writeByteTrace cmd

/-- The trace of a scratchpad read: its session and its nine bytes (R121). -/
def readScratchpadTrace (rom : Vector Byte 8) (img : Vector Byte 9) : List LineAction :=
  selectTrace rom 0xBE ++ img.toList.flatMap readByteTrace

/-- The trace of a scratchpad write: its session and its three bytes (R122). -/
def writeScratchpadTrace (rom : Vector Byte 8) (high low cfg : Byte) : List LineAction :=
  selectTrace rom 0x4E ++ writeByteTrace high ++ writeByteTrace low ++ writeByteTrace cfg

/-- The trace of a poll that samples `zeros` zeros (R123). -/
def pollTrace (zeros : Nat) : List LineAction := (List.replicate zeros false).flatMap readSlotTrace

/-! The environment's answers: the listed ones first, then free draws (R8, R23). -/

/-- The next `n` levels the environment answers with, from its list and the number of draws so far. -/
def upcomingOf : Nat → List Bool → Nat → List Bool
  | 0, _, _ => []
  | n + 1, b :: more, d => b :: upcomingOf n more d
  | n + 1, [], d => Config.freeLevel d :: upcomingOf n [] (d + 1)

/-- The levels the next `n` samples of the released line will return. -/
def State.upcoming (s : State) (n : Nat) : List Bool := upcomingOf n s.script s.draws

/-- The state after the environment has answered `n` samples. -/
def consume (n : Nat) (s : State) : State :=
  { s with script := s.script.drop n, draws := s.draws + (n - s.script.length) }

/-- From `s` to `t` the environment has answered `n` samples. -/
def Answered (n : Nat) (s t : State) : Prop := t.script = (consume n s).script ∧ t.draws = (consume n s).draws

/-- The levels that make the bytes `xs`, in the order they are sampled (R49, R93). -/
def bytesBits (xs : List Byte) : List Bool := xs.flatMap byteBits

/-- The levels that let a selection read the ROM code `rom`: a presence pulse and eight bytes (R102). -/
def selectAnswers (rom : Vector Byte 8) : List Bool := false :: bytesBits rom.toList

/-- A ROM code the block trusts: residue 0x00 (R45). -/
def RomOk (rom : Vector Byte 8) : Prop := residue rom.toList = 0x00

/-- A ROM code U3 accepts: trusted, and of its family (R102, R120). -/
def DsRomOk (rom : Vector Byte 8) : Prop := RomOk rom ∧ rom[0] = Config.dsFamily

/-- A scratchpad image the block accepts: residue 0x00, when validation is enabled (R46, R121). -/
def ImageOk (img : Vector Byte 9) : Prop := Config.spadCrcEn = true → residue img.toList = 0x00

/-! Frames. -/

/-- The block is idle (R20). -/
def Idle (s : State) : Prop := s.phase = .idle

/-- The registers only the host writes, the pending host events and the read port are as before (R14). -/
def HostSideKept (s t : State) : Prop :=
  t.arg0 = s.arg0 ∧ t.arg1 = s.arg1 ∧ t.inputs = s.inputs ∧ t.hRdata = s.hRdata

/-- `RES0` and `RES1` are as before. -/
def ResultsKept (s t : State) : Prop := t.res0 = s.res0 ∧ t.res1 = s.res1

/-- What a failed operation leaves in the result registers (R64, R142): any value in those the operation writes on success,
the others as before. -/
def FailedResults (i : Instr) (s t : State) : Prop :=
  (if i = .readTemperature then t.res0 = .anyValue ∧ t.res1 = .anyValue else ResultsKept s t) ∧
  (if i ∈ [Instr.readScratchpad, .readTemperature, .setResolution] then t.buf = Vector.replicate 9 .anyValue
    else t.buf = s.buf)

/-- How a selection of U3 can fail (R120, R144): the levels the environment answers it with, the trace of that session, and
the cause. The order of the two ROM checks, which the cause alone shows, is the spec's choice (D12). -/
def SessionFails (bits : List Bool) (tr : List LineAction) (c : Cause) : Prop :=
  (bits = [true] ∧ tr = resetTrace true ∧ c = .noPresence) ∨
  ∃ rom, ¬ DsRomOk rom ∧ bits = selectAnswers rom ∧ tr = romTrace rom ∧
    c = if residue rom.toList = 0x00 then .familyMismatch else .romCrc

/-- The latches of an operation that was issued in `s` (R43). -/
def Latched (opcode : Byte) (s t : State) : Prop := t.opL = opcode ∧ t.aL = s.operandA ∧ t.bL = s.operandB

/-- The operation is over: `BUSY = 0`, the line is released, and `OK` is as given (R13, R21, R132). -/
def EndedWith (ok : Bool) (t : State) : Prop := Idle t ∧ t.todo = [] ∧ t.oe = false ∧ t.ok = ok

/-- An operation with this opcode issued in `s` and ended in success, nothing else changed (R21, R43). `picks`, `todo` and
`cause` are the model's own fields (notes/assumptions/15.md, 17.md, 20.md). -/
def succeededAs (opcode : Byte) (s : State) : State :=
  { s with
    ok := true, opL := opcode, aL := s.operandA, bL := s.operandB, picks := s.latchedPicks, todo := [], cause := none }

/-- `BUF` holding the nine bytes. -/
def heldImage (img : Vector Byte 9) : Vector Content 9 := img.map .held

/-- `BUF[2]` as `WRITE_SCRATCHPAD` issued in `s` reads it, after the latches (R61, R122). -/
def State.operandHigh (s : State) : Byte := s.buf[2].read s.latchedPicks

/-- `BUF[3]` as `WRITE_SCRATCHPAD` issued in `s` reads it, after `BUF[2]` (R61, R122). -/
def State.operandLow (s : State) : Byte := s.buf[3].read (s.latchedPicks + s.buf[2].drawn)

/-- `BUF[4]` as `WRITE_SCRATCHPAD` issued in `s` reads it, after `BUF[2]` and `BUF[3]` (R61, R122). -/
def State.operandConfig (s : State) : Byte := s.buf[4].read (s.latchedPicks + s.buf[2].drawn + s.buf[3].drawn)

/-- The operands of a line written by the host, `ARG0` first (R72). -/
def withOperands : List Byte → State → State
  | [a], s => { s with arg0 := .held a }
  | [a, b], s => { s with arg0 := .held a, arg1 := .held b }
  | _, s => s

/-- The operations of R62 that the host can issue through `CMD` and that are no session (phase `Direct`, R20). -/
def directOperations : List Instr :=
  [.driveLow, .release, .sample, .writeBit, .readBit, .writeByte, .readByte, .crcUpdate]

/-- The operations that begin with a reset pulse (R162 (f)). -/
def sessionOperations : List Instr :=
  [.reset, .select, .selectAny, .readScratchpad, .writeScratchpad, .readTemperature, .setResolution]

/-- The opcodes of R70: every value that is not in the list of R62. -/
def Reserved (c : Byte) : Prop :=
  c = 0x00 ∨ (0x04 ≤ c ∧ c ≤ 0x0F) ∨ (0x14 ≤ c ∧ c ≤ 0x1F) ∨ (0x23 ≤ c ∧ c ≤ 0x2F) ∨ (0x31 ≤ c ∧ c ≤ 0x3F) ∨ 0x44 ≤ c

/-- The bits a device reads from a trace of write slots: 1 for a short low phase, 0 for a long one (R90). -/
def sentBits : List LineAction → List Bool
  | .low :: .wait n :: rest => (n == Config.tW1l) :: sentBits rest
  | _ :: rest => sentBits rest
  | [] => []

/-- What two states must share for the operation `i` to do the same in both (R22, R61): the drive state, the operands
the form names, and the environment. -/
structure SameInputs (i : Instr) (s t : State) : Prop where
  idle_left : Idle s
  idle_right : Idle t
  oe : s.oe = t.oe
  argA : i.form = .a ∨ i.form = .ab → s.operandA = t.operandA
  argB : i.form = .ab → s.operandB = t.operandB
  buffer : i.form = .s →
    s.operandHigh = t.operandHigh ∧ s.operandLow = t.operandLow ∧ s.operandConfig = t.operandConfig
  script : s.script = t.script
  draws : s.draws = t.draws

/-! The invariant. -/

/-- No `W(0)` and no two waits side by side: the form in which equal behaviours are equal traces (R80). -/
def canonicalLog : List LineAction → Bool
  | [] => true
  | .wait _ :: .wait _ :: _ => false
  | .wait n :: rest => n != 0 && canonicalLog rest
  | .low :: rest => canonicalLog rest
  | .rel :: rest => canonicalLog rest
  | .sampled _ :: rest => canonicalLog rest

/-- What a trace, newest action first, says of the line driver: the drive state it leaves, or none if it holds a
sample of 1 taken while the line was driven low (R13, R81, R82). -/
def driveAfter : List LineAction → Option Bool
  | [] => some false
  | .low :: rest => (driveAfter rest).map (fun _ => true)
  | .rel :: rest => (driveAfter rest).map (fun _ => false)
  | .wait _ :: rest => driveAfter rest
  | .sampled b :: rest => (driveAfter rest).bind (fun oe => if oe && b then none else some oe)

/-- The invariant of the machine: `Idle` has nothing left to do and every operation in progress ends in `succeed()` if
nothing stops it before (R20, R148); the counters are in their ranges (R18); the trace is in canonical form (R80); and
the trace and the drive state agree, no 1 having been sampled on a line the block pulls low (R13, R82). -/
structure Inv (s : State) : Prop where
  idle_done : Idle s → s.todo = []
  busy_ends : ¬ Idle s → s.todo.getLast? = some (.one .succeed)
  bitcnt_le : s.bitcnt ≤ 8
  bytecnt_le : s.bytecnt ≤ 9
  canonical : canonicalLog s.log = true
  drive : driveAfter s.log = some s.oe

end Sys2Proof.Machine
end

