-- ==== Sys2Proof/Certificates/Slice0/Obligations.lean ====
section
/-!
DEFINITION. The statements for the provers. Each cites the rule of spec/ it formalises, or says which choice of the model it
rests on. No statement rests on a value of a parameter left open or of a free value. Where an equation gives a whole next
state, the model's own fields stand in it beside the spec's registers: `bit` and `todo` (notes/assumptions/17.md), `cause`
(15.md), `draws` and `picks` (20.md).
-/

open Sys2Proof Sys2Proof.Machine

/-! Encoding. -/

/-- Words written out bit by bit from the tables of R62 and R68 decode to their instructions. -/
def Obligations.DecoderReadsTableWords : Prop :=
  decodeTableWord 8 0b00000001 = some .driveLow ∧ decodeTableWord 8 0b00010011 = some .readByte ∧
  decodeTableWord 8 0b00100001 = some .select ∧ decodeTableWord 8 0b00110000 = some .crcUpdate ∧
  decodeTableWord 8 0b01000011 = some .setResolution ∧ decodeTableWord 8 0b10111110 = some .readScratchpadCmd ∧
  decodeTableWord 8 0b11001100 = some .skipRom

/-- Every instruction is what the decoder reads from its own word (R62, R68). -/
def Obligations.DecodeInvertsEncode : Prop :=
  ∀ i : Instr, decodeTableWord 8 (encode i).toNat = some i ∧ ∀ rest, decodeBytes (encode i :: rest) = .ok (i, rest)

/-- A word that decodes is the word of its instruction: all 8 bits are compared (R60). -/
def Obligations.EncodeInvertsDecode : Prop :=
  ∀ (w : Nat) (i : Instr), decodeTableWord 8 w = some i → (encode i).toNat = w

/-- The decoder of `CMD` is the opcode list of R62, each row with its form; every other value is reserved. -/
def Obligations.CmdDecoderIsTheOpcodeList : Prop :=
  ∀ b : Byte,
    (decodeOpcode b).map (fun i => (i, i.form)) = List.lookup b (
      [((0x01 : Byte), (Instr.driveLow, Form.n)), (0x02, (.release, .n)), (0x03, (.sample, .n))] ++
      [(0x10, (.writeBit, .a)), (0x11, (.readBit, .n)), (0x12, (.writeByte, .a)), (0x13, (.readByte, .n))] ++
      [(0x20, (.reset, .n)), (0x21, (.select, .ab)), (0x22, (.selectAny, .a)), (0x30, (.crcUpdate, .ab))] ++
      [(0x40, (.readScratchpad, .n)), (0x41, (.writeScratchpad, .s)), (0x42, (.readTemperature, .n)),
        (0x43, (.setResolution, .ab))]) ∧
    (decodeOpcode b = none ↔ Reserved b)

/-! The step, reset and the host's accesses. -/

/-- A step serves the host's next event; a program word runs as the instruction it decodes to, and the wait for it is left
(R72). The wait reads `STATUS` until `BUSY` reads 0. That a program is a list of events is the model's form
(notes/assumptions/6.md); that a reserved word is a next state is log 14. -/
def Obligations.StepServesTheNextEvent : Prop :=
  ∀ (s : State) (rest : List HostEvent),
    (∀ i, step (s.withFetchWord 8 (encode i).toNat) = exec i { s with inputs := .wait :: s.inputs }) ∧
    (∀ w i, s.inputs = .run w :: rest → decodeByte w = .ok i → step s = exec i { s with inputs := .wait :: rest }) ∧
    (∀ w e, s.inputs = .run w :: rest → decodeByte w = .error e → Idle s →
      step s = .next { s with inputs := .wait :: rest, ok := false }) ∧
    (s.inputs = .wait :: rest → Idle s → step s = .next { s with inputs := rest, hRdata := s.status }) ∧
    (s.inputs = .wait :: rest → ¬ Idle s → step s = .next (tick { s with hRdata := s.status })) ∧
    (s.inputs = .pause :: rest → step s = .next (tick { s with inputs := rest })) ∧
    (s.inputs = [] → step s = .next (tick s)) ∧
    (s.inputs = [] → Idle s → step s = .next s)

/-- No step stops the machine: a failure is an ordinary outcome (R140) and a run that never ends is a run (R146). That a
reserved opcode is a next state too, and no refusal of the model, is log 14 (DEDUCED). -/
def Obligations.EveryStepGoesOn : Prop := ∀ s : State, ∃ t, step s = .next t

/-- What the spec states for reset (R24): the line released, `Idle`, not busy, `OK` 0. -/
def Obligations.ResetStateIsIdleAndReleased : Prop :=
  State.reset.oe = false ∧ State.reset.dqO = false ∧ Idle State.reset ∧ State.reset.busy = false ∧
  State.reset.ok = false ∧ State.reset.status = 0x00

/-- The reset input, in any state (R160, R161): the line is released at once, the operation is abandoned, the registers the
host can read hold any value (R24). That it is one event, that a release stands on the trace only if the line was low, and
what goes on after it, is log 11 (DESIGN CHOICE). -/
def Obligations.RstRecoversTheBlock : Prop :=
  ∀ (s : State) (rest : List HostEvent), s.inputs = .rst :: rest →
    ∃ t, step s = .next t ∧ t.oe = false ∧ Idle t ∧ t.busy = false ∧ t.ok = false ∧ t.todo = [] ∧
      t.arg0 = .anyValue ∧ t.arg1 = .anyValue ∧ t.res0 = .anyValue ∧ t.res1 = .anyValue ∧
      t.buf = Vector.replicate 9 .anyValue ∧
      t.inputs = rest ∧ t.script = s.script ∧ t.trace = s.trace ++ (if s.oe then [.rel] else [])

/-- `STATUS` (R16) and `BUSY = (phase != Idle)` (R20). -/
def Obligations.StatusHoldsBusyAndOk : Prop :=
  ∀ s : State, (s.status.getLsbD 0 = true ↔ s.phase ≠ .idle) ∧ s.status.getLsbD 1 = s.ok ∧
    ∀ k, 2 ≤ k → s.status.getLsbD k = false

/-- A host read returns what the map says and changes no register of the block (R41, R44, R52). A read of a register that
holds any value, or of `RES0`, `RES1`, `BUF[i]` while busy, is a free draw, a new one at each read (R9). -/
def Obligations.HostReadFollowsTheMap : Prop :=
  ∀ (s : State) (off : Offset) (rest : List HostEvent), s.inputs = .read off :: rest →
    ∃ t, step s = .next t ∧
      t = { s with inputs := rest, hRdata := t.hRdata, picks := t.picks } ∧
      (off = 0x00 → t.hRdata = 0x00 ∧ t.picks = s.picks) ∧ (off = 0x01 → t.hRdata = s.status ∧ t.picks = s.picks) ∧
      (off = 0x02 → t.hRdata = s.arg0.read s.picks ∧ t.picks = s.picks + s.arg0.drawn) ∧
      (off = 0x03 → t.hRdata = s.arg1.read s.picks ∧ t.picks = s.picks + s.arg1.drawn) ∧
      (s.busy = false →
        (off = 0x04 → t.hRdata = s.res0.read s.picks ∧ t.picks = s.picks + s.res0.drawn) ∧
        (off = 0x05 → t.hRdata = s.res1.read s.picks ∧ t.picks = s.picks + s.res1.drawn) ∧
        ∀ i : Fin 9, off.toNat = 0x08 + i → t.hRdata = s.buf[i].read s.picks ∧ t.picks = s.picks + s.buf[i].drawn) ∧
      (s.busy = true → off = 0x04 ∨ off = 0x05 ∨ (0x08 ≤ off.toNat ∧ off.toNat ≤ 0x10) →
        t.hRdata = Config.freeByte s.picks ∧ t.picks = s.picks + 1) ∧
      (off = 0x06 ∨ off = 0x07 ∨ 0x11 ≤ off.toNat → t.hRdata = 0x00 ∧ t.picks = s.picks)

/-- A host write of a register other than `CMD` (R42). -/
def Obligations.HostWriteFollowsTheMap : Prop :=
  ∀ (s : State) (off : Offset) (v : Byte) (rest : List HostEvent), s.inputs = .write off v :: rest →
    (s.busy = true → step s = .next { s with inputs := rest }) ∧
    (s.busy = false →
      (off = 0x02 → step s = .next { s with inputs := rest, arg0 := .held v }) ∧
      (off = 0x03 → step s = .next { s with inputs := rest, arg1 := .held v }) ∧
      (∀ i : Fin 9, off.toNat = 0x08 + i → step s = .next { s with inputs := rest, buf := s.buf.set i (.held v) })) ∧
    (off = 0x01 ∨ off = 0x04 ∨ off = 0x05 ∨ off = 0x06 ∨ off = 0x07 ∨ 0x11 ≤ off.toNat →
      step s = .next { s with inputs := rest })

/-- A write of `CMD` (R43): it issues a defined opcode in one step, refuses another, and is dropped while busy. The latches
take what `ARG0` and `ARG1` read as. -/
def Obligations.CmdWriteIssuesOrDrops : Prop :=
  ∀ (s : State) (c : Byte) (rest : List HostEvent), s.inputs = .write 0x00 c :: rest →
    (s.busy = true → step s = .next { s with inputs := rest }) ∧
    (s.busy = false → ∀ i, decodeOpcode c = some i →
      ∃ t, step s = .next t ∧ t.busy = true ∧
        t = { s with inputs := rest, opL := c, aL := s.operandA, bL := s.operandB, picks := s.latchedPicks, ok := false
                     cause := none, todo := t.todo, phase := t.phase } ∧
        (∀ a, s.arg0 = .held a → t.aL = a) ∧ (∀ b, s.arg1 = .held b → t.bL = b) ∧
        (i ∈ directOperations → t.phase = .direct) ∧ (i ∈ sessionOperations → t.phase = .resetPresence)) ∧
    (s.busy = false → decodeOpcode c = none → step s = .next { s with inputs := rest, ok := false })

/-- A reserved opcode is refused: `OK <- 0`, and nothing else (R70). -/
def Obligations.ReservedOpcodeIsRefused : Prop :=
  ∀ (s : State) (c : Byte) (rest : List HostEvent), s.inputs = .write 0x00 c :: rest → Reserved c → Idle s →
    decodeOpcode c = none ∧ step s = .next { s with inputs := rest, ok := false }

/-- While an operation is in progress no instruction is issued: each is dropped. R43 and R173 say it of the `CMD` write; that
`exec` is that write with the time the operation takes, dropped whole, is log 13 (DEDUCED), and of the wire codes log 5. -/
def Obligations.BusyBlockDropsEveryInstruction : Prop :=
  ∀ (i : Instr) (s : State), s.busy = true → exec i s = .next s

/-! Line primitives. -/

/-- `Sample()` (R82): 0 while the line is pulled low, else the environment's answer; the drive state is kept. -/
def Obligations.SampleReadsTheLine : Prop :=
  ∀ s : State, (sampleLine s).oe = s.oe ∧ (sampleLine s).trace = s.trace ++ [.sampled (sampleLine s).bit] ∧
    (s.oe = true → (sampleLine s).bit = false ∧ Answered 0 s (sampleLine s)) ∧
    (s.oe = false → [(sampleLine s).bit] = s.upcoming 1 ∧ Answered 1 s (sampleLine s))

/-- A wait loads the timer, which counts down one microsecond a step; only the timer and the trace change (R18, R86). -/
def Obligations.WaitCountsDownMicroseconds : Prop :=
  ∀ (s : State) (n : Nat) (rest : List Micro), s.busy = true → s.todo = .one (.wait n) :: rest →
    (∀ k, k ≤ n → tick^[k + 1] s =
      { s with timer := n - k, todo := .one .counting :: rest, log := pushWait k s.log }) ∧
    tick^[n + 2] s = { s with timer := 0, todo := rest, log := pushWait n s.log }

/-- `DRIVE_LOW` (R83). -/
def Obligations.DriveLowPullsTheLine : Prop :=
  ∀ s : State, Idle s → exec .driveLow s = .next { succeededAs 0x01 s with oe := true, log := .low :: s.log }

/-- `RELEASE` (R84). -/
def Obligations.ReleaseLetsTheLineGo : Prop :=
  decodeOpcode 0x02 = some .release ∧
  ∀ s : State, Idle s → exec .release s = .next { succeededAs 0x02 s with oe := false, log := .rel :: s.log }

/-- `SAMPLE` (R85). -/
def Obligations.SampleOperationReadsTheLevel : Prop :=
  ∀ s : State, Idle s →
    (s.oe = true →
      exec .sample s = .next { succeededAs 0x03 s with res0 := .held 0x00, bit := false, log := .sampled false :: s.log }) ∧
    (∀ b, s.oe = false → s.upcoming 1 = [b] →
      exec .sample s =
        .next { consume 1 (succeededAs 0x03 s) with
                res0 := .held (if b then 0x01 else 0x00), bit := b, log := .sampled b :: s.log })

/-! Transport. -/

/-- `WRITE_BIT` (R94): one write slot for `ARG0[0]`. -/
def Obligations.WriteBitSendsOneSlot : Prop :=
  decodeOpcode 0x10 = some .writeBit ∧
  ∀ s : State, Idle s →
    exec .writeBit s =
      .next { succeededAs 0x10 s with
              oe := false, timer := 0, bit := s.operandA.getLsbD 0
              log := (writeSlotTrace (s.operandA.getLsbD 0)).reverse ++ s.log }

/-- `READ_BIT` (R95): one read slot, its bit to `RES0`. -/
def Obligations.ReadBitReturnsTheSample : Prop :=
  decodeOpcode 0x11 = some .readBit ∧
  ∀ (s : State) (b : Bool), Idle s → s.upcoming 1 = [b] →
    exec .readBit s =
      .next { consume 1 (succeededAs 0x11 s) with
              oe := false, timer := 0, bit := b, res0 := .held (if b then 0x01 else 0x00)
              log := (readSlotTrace b).reverse ++ s.log }

/-- `WRITE_BYTE` (R96): eight write slots, bit 0 first; `ARG0` is not changed. That `bytecnt` ends at 0 is log 18 (DESIGN
CHOICE): R18 does not say what it holds around a single byte. -/
def Obligations.WriteByteSendsEightSlots : Prop :=
  decodeOpcode 0x12 = some .writeByte ∧
  ∀ s : State, Idle s →
    exec .writeByte s =
      .next { succeededAs 0x12 s with
              oe := false, timer := 0, sr := 0, bitcnt := 0, bytecnt := 0, bit := s.operandA.getLsbD 7
              log := (writeByteTrace s.operandA).reverse ++ s.log }

/-- `READ_BYTE` (R97): eight read slots, the first bit to `RES0[0]`. That `bytecnt` ends at 0 is log 18 (DESIGN CHOICE): R18
does not say what it holds around a single byte. -/
def Obligations.ReadByteReturnsTheSamples : Prop :=
  decodeOpcode 0x13 = some .readByte ∧
  ∀ (s : State) (x : Byte), Idle s → s.upcoming 8 = byteBits x →
    exec .readByte s =
      .next { consume 8 (succeededAs 0x13 s) with
              oe := false, timer := 0, sr := x, bitcnt := 0, bytecnt := 0, bit := x.getLsbD 7, res0 := .held x
              log := (readByteTrace x).reverse ++ s.log }

/-- The round trip of R98: a `WRITE_BYTE` sends the eight bits of its operand, and a byte read from those levels is that
byte. -/
def Obligations.ByteSurvivesTheWire : Prop :=
  ∀ s t : State, Idle s → Idle t →
    ∃ s' seg, exec .writeByte s = .next s' ∧ s'.trace = s.trace ++ seg ∧ sentBits seg = byteBits s.operandA ∧
      (t.upcoming 8 = sentBits seg → ∃ t', exec .readByte t = .next t' ∧ t'.res0 = .held s.operandA)

/-! Session. -/

/-- `RESET` (R103): the reset pulse; `OK` is the presence of a device. -/
def Obligations.ResetOperationReportsPresence : Prop :=
  decodeOpcode 0x20 = some .reset ∧
  ∀ (s : State) (b : Bool), Idle s → s.upcoming 1 = [b] →
    ∃ t, exec .reset s = .next t ∧ EndedWith (!b) t ∧ t.trace = s.trace ++ resetTrace b ∧ Answered 1 s t ∧
      Latched 0x20 s t ∧ HostSideKept s t ∧ ResultsKept s t ∧ t.buf = s.buf ∧ t.rom = s.rom ∧ t.crcAcc = s.crcAcc ∧
      t.sr = s.sr ∧ t.bitcnt = s.bitcnt ∧ t.bytecnt = s.bytecnt

/-- Presence gating (R101, R144): when nothing answers, a session puts its reset pulse on the line and nothing more,
and the operation fails. The cause is a ghost (log 15). -/
def Obligations.AbsentDeviceEndsTheSession : Prop :=
  ∀ (i : Instr) (s : State), i ∈ sessionOperations → Idle s → s.upcoming 1 = [true] →
    ∃ t, exec i s = .next t ∧ EndedWith false t ∧ t.cause = some .noPresence ∧
      t.trace = s.trace ++ resetTrace true ∧ Answered 1 s t ∧ Latched (encode i) s t ∧ HostSideKept s t ∧
      FailedResults i s t ∧
      t.rom = s.rom ∧ t.crcAcc = s.crcAcc ∧ t.sr = s.sr ∧ t.bitcnt = s.bitcnt ∧ t.bytecnt = s.bytecnt

/-- `SELECT` that succeeds (R104). -/
def Obligations.SelectSendsTheCommand : Prop :=
  ∀ (s : State) (rom : Vector Byte 8), Idle s → s.upcoming 65 = selectAnswers rom → RomOk rom → rom[0] = s.operandB →
    ∃ t, exec .select s = .next t ∧ EndedWith true t ∧ t.trace = s.trace ++ selectTrace rom s.operandA ∧
      Answered 65 s t ∧ Latched 0x21 s t ∧ HostSideKept s t ∧ ResultsKept s t ∧ t.buf = s.buf ∧
      t.rom = rom ∧ t.crcAcc = 0x00

/-- `SELECT_ANY` that succeeds: the wildcard lifts the family check (R105). -/
def Obligations.SelectAnyAcceptsEveryFamily : Prop :=
  ∀ (s : State) (rom : Vector Byte 8), Idle s → s.upcoming 65 = selectAnswers rom → RomOk rom →
    ∃ t, exec .selectAny s = .next t ∧ EndedWith true t ∧ t.trace = s.trace ++ selectTrace rom s.operandA ∧
      Answered 65 s t ∧ Latched 0x22 s t ∧ HostSideKept s t ∧ ResultsKept s t ∧ t.buf = s.buf ∧
      t.rom = rom ∧ t.crcAcc = 0x00

/-- A ROM code that fails its validation ends the selection after its eight bytes: the command is not sent. The wildcard
does not lift the CRC check (R102, R144). That `rom` keeps the bytes read is log 24 (DEDUCED), the ghost cause log 15. -/
def Obligations.SelectRejectsTheRomCode : Prop :=
  ∀ (s : State) (rom : Vector Byte 8), Idle s → s.upcoming 65 = selectAnswers rom →
    (¬ RomOk rom ∨ rom[0] ≠ s.operandB →
      ∃ t, exec .select s = .next t ∧ EndedWith false t ∧ t.trace = s.trace ++ romTrace rom ∧
        Answered 65 s t ∧ Latched 0x21 s t ∧ HostSideKept s t ∧ ResultsKept s t ∧ t.buf = s.buf ∧
        t.rom = rom ∧ t.cause = some (if residue rom.toList = 0x00 then .familyMismatch else .romCrc)) ∧
    (¬ RomOk rom →
      ∃ t, exec .selectAny s = .next t ∧ EndedWith false t ∧ t.trace = s.trace ++ romTrace rom ∧
        Answered 65 s t ∧ Latched 0x22 s t ∧ HostSideKept s t ∧ ResultsKept s t ∧ t.buf = s.buf ∧
        t.rom = rom ∧ t.cause = some .romCrc)

/-! CRC8. The constants of R110 are marked in the spec as general knowledge (notes/assumptions/4.md). -/

/-- The loop of R110 is the table of R111. -/
def Obligations.CrcLoopIsTheTable : Prop :=
  crcTable.length = 256 ∧ ∀ c x : Byte, crcTable[(c ^^^ x).toNat]? = some (crc8Update c x)

/-- The bit-serial form of R110: eight received bits, bit 0 first, equal one update. -/
def Obligations.CrcBitSerialIsBytewise : Prop :=
  ∀ c x : Byte, (byteBits x).foldl crcBit c = crc8Update c x

/-- Zero residue (R112 (b)): data followed by its own check byte has residue 0x00. -/
def Obligations.CheckByteGivesZeroResidue : Prop :=
  ∀ (c : Byte) (m : List Byte), crc8 c (m ++ [crc8 c m]) = 0x00

/-- Single-bit errors (R112 (d)): data with residue 0x00 has another residue when one bit is flipped. -/
def Obligations.CrcDetectsSingleBitErrors : Prop :=
  ∀ (front back : List Byte) (x : Byte) (k : Nat), k < 8 → residue (front ++ x :: back) = 0x00 →
    residue (front ++ (x ^^^ (1 <<< k)) :: back) ≠ 0x00

/-- `CRC_UPDATE` (R114): the result goes to `RES0`; the line and `crc_acc` are untouched. -/
def Obligations.CrcUpdateIsPure : Prop :=
  ∀ s : State, Idle s →
    exec .crcUpdate s = .next { succeededAs 0x30 s with res0 := .held (crc8Update s.operandA s.operandB) }

/-! DS18B20. -/

/-- `READ_SCRATCHPAD` that succeeds, with validation enabled or not (R121, R124). -/
def Obligations.ReadScratchpadFillsTheBuffer : Prop :=
  ∀ (s : State) (rom : Vector Byte 8) (img : Vector Byte 9), Idle s →
    s.upcoming 137 = selectAnswers rom ++ bytesBits img.toList → DsRomOk rom → ImageOk img →
    ∃ t, exec .readScratchpad s = .next t ∧ EndedWith true t ∧ t.buf = heldImage img ∧
      t.trace = s.trace ++ readScratchpadTrace rom img ∧ Answered 137 s t ∧ Latched 0x40 s t ∧
      HostSideKept s t ∧ ResultsKept s t

/-- A scratchpad that is not intact (R121, R131, R144): where validation is built in, each operation that reads it ends
there, after all nine bytes, and no later session is started; where it is not, `READ_SCRATCHPAD` and `READ_TEMPERATURE`
deliver it unchecked. That `rom` keeps the bytes read is log 24 (DEDUCED), the ghost cause log 15. -/
def Obligations.CorruptScratchpadFailsWhereValidated : Prop :=
  ∀ (s : State) (rom : Vector Byte 8) (img : Vector Byte 9), Idle s → DsRomOk rom → residue img.toList ≠ 0x00 →
    (s.upcoming 137 = selectAnswers rom ++ bytesBits img.toList →
      ∃ t t', exec .readScratchpad s = .next t ∧ exec .setResolution s = .next t' ∧
        t.trace = s.trace ++ readScratchpadTrace rom img ∧ Answered 137 s t ∧ Latched 0x40 s t ∧
        t.rom = rom ∧ HostSideKept s t ∧ ResultsKept s t ∧
        (Config.spadCrcEn = false → EndedWith true t ∧ t.buf = heldImage img) ∧
        (Config.spadCrcEn = true →
          EndedWith false t ∧ t.cause = some .scratchpadCrc ∧ FailedResults .readScratchpad s t ∧
          EndedWith false t' ∧ t'.cause = some .scratchpadCrc ∧ FailedResults .setResolution s t' ∧
          t'.trace = s.trace ++ readScratchpadTrace rom img ∧ Answered 137 s t' ∧ Latched 0x43 s t' ∧
          t'.rom = rom ∧ HostSideKept s t')) ∧
    (∀ (rom' : Vector Byte 8) (zeros : Nat) (more : List Bool), DsRomOk rom' → s.upcoming 65 = selectAnswers rom' →
      s.script.drop 65 = List.replicate zeros false ++ true :: more →
      { s with script := more }.upcoming 137 = selectAnswers rom ++ bytesBits img.toList →
      ∃ t, exec .readTemperature s = .next t ∧
        t.trace = s.trace ++ selectTrace rom' 0x44 ++ pollTrace zeros ++ readSlotTrace true ++
          readScratchpadTrace rom img ∧
        Answered 137 { s with script := more } t ∧ Latched 0x42 s t ∧ t.rom = rom ∧ HostSideKept s t ∧
        (Config.spadCrcEn = false →
          EndedWith true t ∧ t.res0 = .held img[0] ∧ t.res1 = .held img[1] ∧ t.buf = heldImage img) ∧
        (Config.spadCrcEn = true →
          EndedWith false t ∧ t.cause = some .scratchpadCrc ∧ FailedResults .readTemperature s t))

/-- `WRITE_SCRATCHPAD` that succeeds: bytes 2, 3, 4 go out in that order, and `BUF` is not changed (R122, R125). -/
def Obligations.WriteScratchpadSendsThreeBytes : Prop :=
  ∀ (s : State) (rom : Vector Byte 8), Idle s → s.upcoming 65 = selectAnswers rom → DsRomOk rom →
    ∃ t, exec .writeScratchpad s = .next t ∧ EndedWith true t ∧ t.buf = s.buf ∧
      t.trace = s.trace ++ writeScratchpadTrace rom s.operandHigh s.operandLow s.operandConfig ∧
      Answered 65 s t ∧ Latched 0x41 s t ∧ HostSideKept s t ∧ ResultsKept s t

/-- U3 accepts a DS18B20 only: any other ROM code ends its operations after the first session's ROM bytes (R120, R144). That
`rom` keeps the bytes read is log 24 (DEDUCED); the cause, with the order of the two checks, is a ghost (log 15). -/
def Obligations.DsOperationsRejectTheRomCode : Prop :=
  ∀ (s : State) (rom : Vector Byte 8) (i : Instr),
    i ∈ [Instr.readScratchpad, .writeScratchpad, .readTemperature, .setResolution] →
    Idle s → s.upcoming 65 = selectAnswers rom → ¬ DsRomOk rom →
    ∃ t, exec i s = .next t ∧ EndedWith false t ∧ t.trace = s.trace ++ romTrace rom ∧
      Answered 65 s t ∧ Latched (encode i) s t ∧ t.rom = rom ∧ HostSideKept s t ∧ FailedResults i s t ∧
      t.cause = some (if residue rom.toList = 0x00 then .familyMismatch else .romCrc)

/-- `READ_TEMPERATURE` that succeeds (R123, R126): convert, poll to the first 1, read, and the two temperature bytes to
the result registers. -/
def Obligations.ReadTemperatureReturnsTheReading : Prop :=
  ∀ (s : State) (rom rom' : Vector Byte 8) (img : Vector Byte 9) (zeros : Nat) (more : List Bool), Idle s →
    s.upcoming 65 = selectAnswers rom → DsRomOk rom →
    s.script.drop 65 = List.replicate zeros false ++ true :: more →
    { s with script := more }.upcoming 137 = selectAnswers rom' ++ bytesBits img.toList → DsRomOk rom' → ImageOk img →
    ∃ t, exec .readTemperature s = .next t ∧ EndedWith true t ∧ t.res0 = .held img[0] ∧ t.res1 = .held img[1] ∧
      t.buf = heldImage img ∧
      t.trace = s.trace ++ selectTrace rom 0x44 ++ pollTrace zeros ++ readSlotTrace true ++
        readScratchpadTrace rom' img ∧
      Answered 137 { s with script := more } t ∧ Latched 0x42 s t ∧ HostSideKept s t

/-- A conversion that is not over when the listed answers end (R123, R146): the operation is still in progress, polling,
with `BUSY` 1 and no result written. -/
def Obligations.UnfinishedConversionKeepsTheBlockBusy : Prop :=
  ∀ (s : State) (rom : Vector Byte 8) (zeros : Nat), Idle s → s.upcoming 65 = selectAnswers rom → DsRomOk rom →
    s.script.drop 65 = List.replicate zeros false →
    ∃ t, exec .readTemperature s = .next t ∧ t.phase = .dataTransfer ∧ t.status = 0x01 ∧ t.ok = false ∧
      t.todo.head? = some .poll ∧ t.script = [] ∧
      t.trace = s.trace ++ selectTrace rom 0x44 ++ pollTrace zeros ∧ HostSideKept s t ∧ ResultsKept s t ∧ t.buf = s.buf

/-- The poll at the grain of steps (R123, R172), whether the answers are listed or free: as long as zeros come it goes on, slot
after slot, the block busy at every step; the first 1 ends it. -/
def Obligations.PollEndsOnlyAtAOne : Prop :=
  ∀ (s : State) (rest : List Micro), s.busy = true → s.todo = .poll :: rest →
    (∀ zeros : Nat, s.upcoming zeros = List.replicate zeros false →
      ∃ n, zeros ≤ n ∧ (∀ m, m ≤ n → (tick^[m] s).phase = s.phase ∧ (tick^[m] s).ok = s.ok) ∧
        (tick^[n] s).todo = .poll :: rest ∧ Answered zeros s (tick^[n] s) ∧
        (tick^[n] s).trace = s.trace ++ pollTrace zeros) ∧
    (s.upcoming 1 = [true] →
      ∃ n, (∀ m, m ≤ n → (tick^[m] s).phase = s.phase ∧ (tick^[m] s).ok = s.ok) ∧
        (tick^[n] s).todo = rest ∧ Answered 1 s (tick^[n] s) ∧ (tick^[n] s).trace = s.trace ++ readSlotTrace true)

/-- `SET_RESOLUTION` on the fast path: no write session, and the persist operand is not looked at (R127). -/
def Obligations.SetResolutionFastPath : Prop :=
  ∀ (s : State) (rom : Vector Byte 8) (img : Vector Byte 9), Idle s →
    s.upcoming 137 = selectAnswers rom ++ bytesBits img.toList → DsRomOk rom → ImageOk img →
    img[4].extractLsb' 5 2 = s.operandA.extractLsb' 0 2 →
    ∃ t, exec .setResolution s = .next t ∧ EndedWith true t ∧ t.buf = heldImage img ∧
      t.trace = s.trace ++ readScratchpadTrace rom img ∧ Answered 137 s t ∧ Latched 0x43 s t ∧
      HostSideKept s t ∧ ResultsKept s t

/-- `SET_RESOLUTION` that changes the field, without and with the copy to EEPROM (R127): the alarm bytes and the other
configuration bits go back as read. -/
def Obligations.SetResolutionWritesTheField : Prop :=
  ∀ (s : State) (rom rom' rom'' : Vector Byte 8) (img : Vector Byte 9) (cfg : Byte), Idle s →
    DsRomOk rom → ImageOk img → DsRomOk rom' → DsRomOk rom'' →
    img[4].extractLsb' 5 2 ≠ s.operandA.extractLsb' 0 2 →
    cfg = (img[4] &&& 0x9F) ||| ((s.operandA.extractLsb' 0 2).setWidth 8 <<< 5) →
    (s.operandB.getLsbD 0 = false →
      s.upcoming 202 = selectAnswers rom ++ bytesBits img.toList ++ selectAnswers rom' →
      ∃ t, exec .setResolution s = .next t ∧ EndedWith true t ∧ t.buf = heldImage (img.set 4 cfg) ∧
        t.trace = s.trace ++ readScratchpadTrace rom img ++ writeScratchpadTrace rom' img[2] img[3] cfg ∧
        Answered 202 s t ∧ Latched 0x43 s t ∧ HostSideKept s t ∧ ResultsKept s t) ∧
    (s.operandB.getLsbD 0 = true →
      s.upcoming 267 =
        selectAnswers rom ++ bytesBits img.toList ++ selectAnswers rom' ++ selectAnswers rom'' →
      ∃ t, exec .setResolution s = .next t ∧ EndedWith true t ∧ t.buf = heldImage (img.set 4 cfg) ∧
        t.trace = s.trace ++ readScratchpadTrace rom img ++ writeScratchpadTrace rom' img[2] img[3] cfg ++
          selectTrace rom'' 0x48 ∧
        Answered 267 s t ∧ Latched 0x43 s t ∧ HostSideKept s t ∧ ResultsKept s t)

/-- Eager abort (R131, R144): a selection that fails in a later session of `SET_RESOLUTION`, for whatever cause, ends the
operation there; what was done before stands. The cause is a ghost (log 15). -/
def Obligations.LaterSessionsAbortEagerly : Prop :=
  ∀ (s : State) (rom rom' : Vector Byte 8) (img : Vector Byte 9) (cfg : Byte) (bits : List Bool) (tr : List LineAction)
    (c : Cause), Idle s → DsRomOk rom → ImageOk img → DsRomOk rom' →
    img[4].extractLsb' 5 2 ≠ s.operandA.extractLsb' 0 2 →
    cfg = (img[4] &&& 0x9F) ||| ((s.operandA.extractLsb' 0 2).setWidth 8 <<< 5) → SessionFails bits tr c →
    (s.upcoming (137 + bits.length) = selectAnswers rom ++ bytesBits img.toList ++ bits →
      ∃ t, exec .setResolution s = .next t ∧ EndedWith false t ∧ t.cause = some c ∧
        t.trace = s.trace ++ readScratchpadTrace rom img ++ tr ∧
        Answered (137 + bits.length) s t ∧ Latched 0x43 s t ∧ HostSideKept s t ∧ FailedResults .setResolution s t) ∧
    (s.operandB.getLsbD 0 = true →
      s.upcoming (202 + bits.length) = selectAnswers rom ++ bytesBits img.toList ++ selectAnswers rom' ++ bits →
      ∃ t, exec .setResolution s = .next t ∧ EndedWith false t ∧ t.cause = some c ∧
        t.trace = s.trace ++ readScratchpadTrace rom img ++ writeScratchpadTrace rom' img[2] img[3] cfg ++ tr ∧
        Answered (202 + bits.length) s t ∧ Latched 0x43 s t ∧ HostSideKept s t ∧ FailedResults .setResolution s t)

/-- Eager abort in `READ_TEMPERATURE` (R126, R131, R144): a selection that fails after the poll ends the operation there,
for whatever cause; the Convert session and the poll stand on the trace. The cause is a ghost (log 15). -/
def Obligations.ReadTemperatureAbortsAfterThePoll : Prop :=
  ∀ (s : State) (rom : Vector Byte 8) (zeros : Nat) (more bits : List Bool) (tr : List LineAction) (c : Cause), Idle s →
    s.upcoming 65 = selectAnswers rom → DsRomOk rom →
    s.script.drop 65 = List.replicate zeros false ++ true :: more →
    SessionFails bits tr c → { s with script := more }.upcoming bits.length = bits →
    ∃ t, exec .readTemperature s = .next t ∧ EndedWith false t ∧ t.cause = some c ∧
      t.trace = s.trace ++ selectTrace rom 0x44 ++ pollTrace zeros ++ readSlotTrace true ++ tr ∧
      Answered bits.length { s with script := more } t ∧ Latched 0x42 s t ∧ HostSideKept s t ∧
      FailedResults .readTemperature s t

/-- A session passes its phases in the order of R20, each left only when its part of the session stands on the trace (R100,
R102): for an operation of U3 up to its first data transfer, for `SELECT` to its end, and for the two operations of one
session with data to their end. -/
def Obligations.SessionPassesItsPhases : Prop :=
  ∀ (s : State) (rom : Vector Byte 8) (i : Instr) (cmd : Byte) (last : Phase), Idle s →
    s.upcoming 65 = selectAnswers rom → DsRomOk rom → (i = .select → s.operandB = Config.dsFamily) →
    (i, cmd, last) ∈ [(Instr.readScratchpad, 0xBE, Phase.dataTransfer), (.writeScratchpad, 0x4E, .dataTransfer),
      (.readTemperature, 0x44, .dataTransfer), (.setResolution, 0xBE, .dataTransfer), (.select, s.operandA, .idle)] →
    ∃ a b c, 0 < a ∧ a < b ∧ b < c ∧
      (∀ n, n < a → (tick^[n] (startOf i s)).phase = .resetPresence) ∧
      (tick^[a] (startOf i s)).trace = s.trace ++ resetTrace false ∧
      (∀ n, a ≤ n → n < b → (tick^[n] (startOf i s)).phase = .romReadValidate) ∧
      (tick^[b] (startOf i s)).trace = s.trace ++ romTrace rom ∧
      (∀ n, b ≤ n → n < c → (tick^[n] (startOf i s)).phase = .commandIssue) ∧
      (tick^[c] (startOf i s)).trace = s.trace ++ selectTrace rom cmd ∧ (tick^[c] (startOf i s)).phase = last ∧
      (i = .readScratchpad ∨ i = .writeScratchpad →
        ∃ d, c < d ∧ (∀ n, c ≤ n → n < d → (tick^[n] (startOf i s)).phase = .dataTransfer) ∧
          (tick^[d] (startOf i s)).phase = .idle)

/-- Idempotence (R130): after a `SET_RESOLUTION` that succeeded, another with the same resolution, reading back the
configuration byte the first one left, writes nothing and succeeds. -/
def Obligations.SetResolutionIsIdempotent : Prop :=
  ∀ (s s' t : State) (rom : Vector Byte 8) (img : Vector Byte 9), Idle s → exec .setResolution s = .next s' →
    s'.ok = true → Idle t → t.operandA.extractLsb' 0 2 = s.operandA.extractLsb' 0 2 →
    t.upcoming 137 = selectAnswers rom ++ bytesBits img.toList → DsRomOk rom → ImageOk img →
    s'.buf[4] = .held img[4] →
    ∃ t', exec .setResolution t = .next t' ∧ EndedWith true t' ∧ t'.trace = t.trace ++ readScratchpadTrace rom img

/-- The resolution field (R129): `new[6:5] = r`, the other bits as before. -/
def Obligations.ResolutionFieldIsReplaced : Prop :=
  ∀ (cfg : Byte) (r : BitVec 2), resolutionField (withResolution cfg r) = r ∧
    (withResolution cfg r).getLsbD 7 = cfg.getLsbD 7 ∧
    (withResolution cfg r).extractLsb' 0 5 = cfg.extractLsb' 0 5 ∧ resolutionField cfg = ((cfg >>> 5) &&& 0x3).setWidth 2

/-- The temperature (R128): `BUF[1] × 256 + BUF[0]`, minus 65536 if the top bit is set. -/
def Obligations.TemperatureIsTwosComplement : Prop :=
  ∀ msb lsb : Byte, temperatureInt msb lsb =
    (msb.toNat * 256 + lsb.toNat : Int) - (if msb.getLsbD 7 then 65536 else 0)

/-! Wire command codes. The meaning of a code on its own is the model's reading (notes/assumptions/5.md). -/

/-- Each wire command code on its own is the host line `WRITE_BYTE code` (R68, R72; log 5, DEDUCED): `ARG0` takes the code, and
its eight bits go out in write slots, bit 0 first. That `bytecnt` ends at 0 is log 18 (DESIGN CHOICE). -/
def Obligations.WireCodesGoOutAsBytes : Prop :=
  ∀ (i : Instr) (code : Byte) (s : State),
    (i, code) ∈ [(Instr.searchRom, 0xF0), (.readRom, 0x33), (.matchRom, 0x55), (.skipRom, 0xCC), (.alarmSearch, 0xEC),
      (.convertT, 0x44), (.writeScratchpadCmd, 0x4E), (.readScratchpadCmd, 0xBE), (.copyScratchpad, 0x48),
      (.recallEeprom, 0xB8), (.readPowerSupply, 0xB4)] → Idle s →
    exec i s =
      .next { succeededAs 0x12 { s with arg0 := .held code } with
              oe := false, timer := 0, sr := 0, bitcnt := 0, bytecnt := 0, bit := code.getLsbD 7
              log := (writeByteTrace code).reverse ++ s.log }

/-! Whole-machine rules. -/

/-- What a failure does, and that it leaves every register as it was but for those the operation writes on success, which
hold any value (R64, R142). That a release stands on the trace only if the line was low is log 21 (DEDUCED, from R9); the
cause is a ghost (log 15). -/
def Obligations.FailureKeepsTheOtherRegisters : Prop :=
  ∀ (c : Cause) (s : State),
    (fail c s).busy = false ∧
    fail c s = { s with
      oe := false, ok := false, phase := .idle, cause := some c, log := if s.oe then .rel :: s.log else s.log
      res0 := if s.opL = 0x42 then .anyValue else s.res0
      res1 := if s.opL = 0x42 then .anyValue else s.res1
      buf := if s.opL = 0x40 ∨ s.opL = 0x42 ∨ s.opL = 0x43 then Vector.replicate 9 .anyValue else s.buf }

/-- Which operations can end with which cause (R141), and that `OK` is 1 exactly where there was none (R21). -/
def Obligations.CausesArisePerOperation : Prop :=
  ∀ (i : Instr) (s t : State), Idle s → exec i s = .next t →
    (t.cause = some .noPresence → i ∈ sessionOperations) ∧
    (t.cause = some .romCrc → i ∈ sessionOperations ∧ i ≠ .reset) ∧
    (t.cause = some .familyMismatch → i ∈ sessionOperations ∧ i ≠ .reset ∧ i ≠ .selectAny) ∧
    (t.cause = some .scratchpadCrc → i ∈ [Instr.readScratchpad, .readTemperature, .setResolution]) ∧
    (Idle t → (t.ok = true ↔ t.cause = none))

/-- Every operation but `DRIVE_LOW` ends with the line released if it was released before (R13); every one but `SAMPLE` and
`CRC_UPDATE`, which do not touch the drive state (R85, R114), also if the host had left it low (R13, R132). -/
def Obligations.OperationsReleaseTheLine : Prop :=
  ∀ (i : Instr) (s t : State), Idle s → exec i s = .next t → i ≠ .driveLow →
    (s.oe = false → t.oe = false) ∧ (i ≠ .sample → i ≠ .crcUpdate → t.oe = false) ∧
    (i = .sample ∨ i = .crcUpdate → t.oe = s.oe)

/-- An operation only adds to the trace: what stands on it is not changed, merged or reordered, so the trace of a run is
made of its operations' traces in issue order (R53). -/
def Obligations.OperationsOnlyAddToTheTrace : Prop :=
  ∀ (i : Instr) (s t : State), Idle s → exec i s = .next t → s.trace <+: t.trace

/-- No state survives an operation (R22): two states that share the drive state, the operands the form names and the
environment give the same trace, the same outcome and, on success, the same results, whatever the rest holds. -/
def Obligations.NoStateSurvivesAnOperation : Prop :=
  ∀ (i : Instr) (s t : State), SameInputs i s t →
    ∃ s' t' seg, exec i s = .next s' ∧ exec i t = .next t' ∧
      s'.trace = s.trace ++ seg ∧ t'.trace = t.trace ++ seg ∧
      s'.phase = t'.phase ∧ s'.ok = t'.ok ∧ s'.oe = t'.oe ∧ s'.cause = t'.cause ∧
      s'.script = t'.script ∧ s'.draws = t'.draws ∧
      (s'.ok = true → i ∈ [Instr.sample, .readBit, .readByte, .crcUpdate, .readTemperature] → s'.res0 = t'.res0) ∧
      (s'.ok = true → i = .readTemperature → s'.res1 = t'.res1) ∧
      (s'.ok = true → i ∈ [Instr.readScratchpad, .readTemperature, .setResolution] → s'.buf = t'.buf)

/-- Waiting for an operation and taking its steps one by one come to the same state (R51, R54): the issued operation,
stepped often enough by the controller, reaches exactly what `exec` answers. -/
def Obligations.WaitingIsStepping : Prop :=
  ∀ (i : Instr) (s : State), Idle s → ∃ n t, exec i s = .next t ∧ tick^[n] (startOf i s) = t

/-- The durations of R180, for every value R5 allows of the parameters it bounds from below. The four others are at their
nominal values 60, 5, 1, 14 (U2; log 8, DEDUCED). -/
def Obligations.DurationsAreTheSumOfTheWaits : Prop :=
  (∀ v, traceTime (writeSlotTrace v) = Config.tSlot + Config.tRec) ∧
  (∀ b, traceTime (readSlotTrace b) = Config.tSlot + Config.tRec) ∧
  (∀ x, traceTime (writeByteTrace x) = 8 * (Config.tSlot + Config.tRec)) ∧
  (∀ x, traceTime (readByteTrace x) = 8 * (Config.tSlot + Config.tRec)) ∧
  (∀ b, traceTime (resetTrace b) = Config.tRstl + Config.tRsth) ∧
  (∀ rom, traceTime (romTrace rom) = Config.tRstl + Config.tRsth + 72 * (Config.tSlot + Config.tRec)) ∧
  (∀ rom c, traceTime (selectTrace rom c) = Config.tRstl + Config.tRsth + 80 * (Config.tSlot + Config.tRec)) ∧
  (∀ k, traceTime (pollTrace k) = k * (Config.tSlot + Config.tRec)) ∧
  (∀ rom img, traceTime (readScratchpadTrace rom img) =
    Config.tRstl + Config.tRsth + 152 * (Config.tSlot + Config.tRec)) ∧
  (∀ rom h l c, traceTime (writeScratchpadTrace rom h l c) =
    Config.tRstl + Config.tRsth + 104 * (Config.tSlot + Config.tRec))

/-- The lines of R72: the accesses of a well-formed line, served one by one, write its operands, issue its instruction and wait,
reading `STATUS`, until `BUSY` reads 0; they reach what `exec` answers. Where the listed answers end inside the poll the wait
goes on (log 7). R72 has no line for a wire code; its line is `WRITE_BYTE code` (log 5, DEDUCED). That the accesses are a list
of events, and `exec` the issue with the time the operation takes, is log 6 and log 13. -/
def Obligations.AssemblerLinesRun : Prop :=
  ∀ (s : State) (rest : List HostEvent), Idle s →
    (∀ i args, (AsmLine.op i args).wellFormed = true → s.inputs = lineEvents (.op i args) ++ rest →
      ∃ n t, exec i (withOperands args { s with inputs := rest }) = .next t ∧
        (Idle t → core.run n s = .next { t with hRdata := t.status }) ∧
        (¬ Idle t → core.run n s = .next { t with inputs := .wait :: rest, hRdata := 0x01 })) ∧
    (∀ (k : Fin 9) v, s.inputs = lineEvents (.setBuf k v) ++ rest →
      core.run 1 s = .next { s with inputs := rest, buf := s.buf.set k (.held v) })

/-- The invariant holds right after reset. The bounds of the counters rest there on the zeros of log 1 (DESIGN CHOICE): R24
leaves both unspecified. -/
def Obligations.ResetMeetsTheInvariant : Prop := Inv State.reset

/-- Every step keeps the invariant: `Idle` has nothing left to do and an operation in progress ends in `succeed()` if
nothing stops it (R20, R148), the counters stay in their ranges (R18), the trace stays in canonical form (R80), and the
trace and the drive state agree, no 1 being sampled on a line pulled low (R13, R82). Across the reset input the counters
rest on log 11 (DESIGN CHOICE); the trace and the program as data are log 12 and log 17. -/
def Obligations.StepsKeepTheInvariant : Prop :=
  ∀ s t : State, Inv s → step s = .next t → Inv t
end

