-- ==== Sys2Proof/Laws/State.lean ====
section
/-!
SUPPORT. One lemma per field per update of the state, so that no later proof unfolds a record update.
-/

namespace Sys2Proof.Machine

/-! `driveLow` -/
@[simp] theorem driveLow_oe (s : State) : (driveLow s).oe = true := rfl
@[simp] theorem driveLow_ok (s : State) : (driveLow s).ok = s.ok := rfl
@[simp] theorem driveLow_arg0 (s : State) : (driveLow s).arg0 = s.arg0 := rfl
@[simp] theorem driveLow_arg1 (s : State) : (driveLow s).arg1 = s.arg1 := rfl
@[simp] theorem driveLow_res0 (s : State) : (driveLow s).res0 = s.res0 := rfl
@[simp] theorem driveLow_res1 (s : State) : (driveLow s).res1 = s.res1 := rfl
@[simp] theorem driveLow_buf (s : State) : (driveLow s).buf = s.buf := rfl
@[simp] theorem driveLow_phase (s : State) : (driveLow s).phase = s.phase := rfl
@[simp] theorem driveLow_opL (s : State) : (driveLow s).opL = s.opL := rfl
@[simp] theorem driveLow_aL (s : State) : (driveLow s).aL = s.aL := rfl
@[simp] theorem driveLow_bL (s : State) : (driveLow s).bL = s.bL := rfl
@[simp] theorem driveLow_sr (s : State) : (driveLow s).sr = s.sr := rfl
@[simp] theorem driveLow_bitcnt (s : State) : (driveLow s).bitcnt = s.bitcnt := rfl
@[simp] theorem driveLow_bytecnt (s : State) : (driveLow s).bytecnt = s.bytecnt := rfl
@[simp] theorem driveLow_timer (s : State) : (driveLow s).timer = s.timer := rfl
@[simp] theorem driveLow_rom (s : State) : (driveLow s).rom = s.rom := rfl
@[simp] theorem driveLow_crcAcc (s : State) : (driveLow s).crcAcc = s.crcAcc := rfl
@[simp] theorem driveLow_hRdata (s : State) : (driveLow s).hRdata = s.hRdata := rfl
@[simp] theorem driveLow_bit (s : State) : (driveLow s).bit = s.bit := rfl
@[simp] theorem driveLow_todo (s : State) : (driveLow s).todo = s.todo := rfl
@[simp] theorem driveLow_cause (s : State) : (driveLow s).cause = s.cause := rfl
@[simp] theorem driveLow_script (s : State) : (driveLow s).script = s.script := rfl
@[simp] theorem driveLow_draws (s : State) : (driveLow s).draws = s.draws := rfl
@[simp] theorem driveLow_picks (s : State) : (driveLow s).picks = s.picks := rfl
@[simp] theorem driveLow_inputs (s : State) : (driveLow s).inputs = s.inputs := rfl
@[simp] theorem driveLow_log (s : State) : (driveLow s).log = .low :: s.log := rfl

/-! `release` -/
@[simp] theorem release_oe (s : State) : (release s).oe = false := rfl
@[simp] theorem release_ok (s : State) : (release s).ok = s.ok := rfl
@[simp] theorem release_arg0 (s : State) : (release s).arg0 = s.arg0 := rfl
@[simp] theorem release_arg1 (s : State) : (release s).arg1 = s.arg1 := rfl
@[simp] theorem release_res0 (s : State) : (release s).res0 = s.res0 := rfl
@[simp] theorem release_res1 (s : State) : (release s).res1 = s.res1 := rfl
@[simp] theorem release_buf (s : State) : (release s).buf = s.buf := rfl
@[simp] theorem release_phase (s : State) : (release s).phase = s.phase := rfl
@[simp] theorem release_opL (s : State) : (release s).opL = s.opL := rfl
@[simp] theorem release_aL (s : State) : (release s).aL = s.aL := rfl
@[simp] theorem release_bL (s : State) : (release s).bL = s.bL := rfl
@[simp] theorem release_sr (s : State) : (release s).sr = s.sr := rfl
@[simp] theorem release_bitcnt (s : State) : (release s).bitcnt = s.bitcnt := rfl
@[simp] theorem release_bytecnt (s : State) : (release s).bytecnt = s.bytecnt := rfl
@[simp] theorem release_timer (s : State) : (release s).timer = s.timer := rfl
@[simp] theorem release_rom (s : State) : (release s).rom = s.rom := rfl
@[simp] theorem release_crcAcc (s : State) : (release s).crcAcc = s.crcAcc := rfl
@[simp] theorem release_hRdata (s : State) : (release s).hRdata = s.hRdata := rfl
@[simp] theorem release_bit (s : State) : (release s).bit = s.bit := rfl
@[simp] theorem release_todo (s : State) : (release s).todo = s.todo := rfl
@[simp] theorem release_cause (s : State) : (release s).cause = s.cause := rfl
@[simp] theorem release_script (s : State) : (release s).script = s.script := rfl
@[simp] theorem release_draws (s : State) : (release s).draws = s.draws := rfl
@[simp] theorem release_picks (s : State) : (release s).picks = s.picks := rfl
@[simp] theorem release_inputs (s : State) : (release s).inputs = s.inputs := rfl
@[simp] theorem release_log (s : State) : (release s).log = .rel :: s.log := rfl

/-! `waitFor` -/
@[simp] theorem waitFor_oe (n : Nat) (s : State) : (waitFor n s).oe = s.oe := rfl
@[simp] theorem waitFor_ok (n : Nat) (s : State) : (waitFor n s).ok = s.ok := rfl
@[simp] theorem waitFor_arg0 (n : Nat) (s : State) : (waitFor n s).arg0 = s.arg0 := rfl
@[simp] theorem waitFor_arg1 (n : Nat) (s : State) : (waitFor n s).arg1 = s.arg1 := rfl
@[simp] theorem waitFor_res0 (n : Nat) (s : State) : (waitFor n s).res0 = s.res0 := rfl
@[simp] theorem waitFor_res1 (n : Nat) (s : State) : (waitFor n s).res1 = s.res1 := rfl
@[simp] theorem waitFor_buf (n : Nat) (s : State) : (waitFor n s).buf = s.buf := rfl
@[simp] theorem waitFor_phase (n : Nat) (s : State) : (waitFor n s).phase = s.phase := rfl
@[simp] theorem waitFor_opL (n : Nat) (s : State) : (waitFor n s).opL = s.opL := rfl
@[simp] theorem waitFor_aL (n : Nat) (s : State) : (waitFor n s).aL = s.aL := rfl
@[simp] theorem waitFor_bL (n : Nat) (s : State) : (waitFor n s).bL = s.bL := rfl
@[simp] theorem waitFor_sr (n : Nat) (s : State) : (waitFor n s).sr = s.sr := rfl
@[simp] theorem waitFor_bitcnt (n : Nat) (s : State) : (waitFor n s).bitcnt = s.bitcnt := rfl
@[simp] theorem waitFor_bytecnt (n : Nat) (s : State) : (waitFor n s).bytecnt = s.bytecnt := rfl
@[simp] theorem waitFor_timer (n : Nat) (s : State) : (waitFor n s).timer = 0 := rfl
@[simp] theorem waitFor_rom (n : Nat) (s : State) : (waitFor n s).rom = s.rom := rfl
@[simp] theorem waitFor_crcAcc (n : Nat) (s : State) : (waitFor n s).crcAcc = s.crcAcc := rfl
@[simp] theorem waitFor_hRdata (n : Nat) (s : State) : (waitFor n s).hRdata = s.hRdata := rfl
@[simp] theorem waitFor_bit (n : Nat) (s : State) : (waitFor n s).bit = s.bit := rfl
@[simp] theorem waitFor_todo (n : Nat) (s : State) : (waitFor n s).todo = s.todo := rfl
@[simp] theorem waitFor_cause (n : Nat) (s : State) : (waitFor n s).cause = s.cause := rfl
@[simp] theorem waitFor_script (n : Nat) (s : State) : (waitFor n s).script = s.script := rfl
@[simp] theorem waitFor_draws (n : Nat) (s : State) : (waitFor n s).draws = s.draws := rfl
@[simp] theorem waitFor_picks (n : Nat) (s : State) : (waitFor n s).picks = s.picks := rfl
@[simp] theorem waitFor_inputs (n : Nat) (s : State) : (waitFor n s).inputs = s.inputs := rfl
@[simp] theorem waitFor_log (n : Nat) (s : State) : (waitFor n s).log = pushWait n s.log := rfl

/-! `countDown` -/
@[simp] theorem countDown_oe (s : State) (n : Nat) : (countDown s n).oe = s.oe := rfl
@[simp] theorem countDown_ok (s : State) (n : Nat) : (countDown s n).ok = s.ok := rfl
@[simp] theorem countDown_arg0 (s : State) (n : Nat) : (countDown s n).arg0 = s.arg0 := rfl
@[simp] theorem countDown_arg1 (s : State) (n : Nat) : (countDown s n).arg1 = s.arg1 := rfl
@[simp] theorem countDown_res0 (s : State) (n : Nat) : (countDown s n).res0 = s.res0 := rfl
@[simp] theorem countDown_res1 (s : State) (n : Nat) : (countDown s n).res1 = s.res1 := rfl
@[simp] theorem countDown_buf (s : State) (n : Nat) : (countDown s n).buf = s.buf := rfl
@[simp] theorem countDown_phase (s : State) (n : Nat) : (countDown s n).phase = s.phase := rfl
@[simp] theorem countDown_opL (s : State) (n : Nat) : (countDown s n).opL = s.opL := rfl
@[simp] theorem countDown_aL (s : State) (n : Nat) : (countDown s n).aL = s.aL := rfl
@[simp] theorem countDown_bL (s : State) (n : Nat) : (countDown s n).bL = s.bL := rfl
@[simp] theorem countDown_sr (s : State) (n : Nat) : (countDown s n).sr = s.sr := rfl
@[simp] theorem countDown_bitcnt (s : State) (n : Nat) : (countDown s n).bitcnt = s.bitcnt := rfl
@[simp] theorem countDown_bytecnt (s : State) (n : Nat) : (countDown s n).bytecnt = s.bytecnt := rfl
@[simp] theorem countDown_timer (s : State) (n : Nat) : (countDown s n).timer = n := rfl
@[simp] theorem countDown_rom (s : State) (n : Nat) : (countDown s n).rom = s.rom := rfl
@[simp] theorem countDown_crcAcc (s : State) (n : Nat) : (countDown s n).crcAcc = s.crcAcc := rfl
@[simp] theorem countDown_hRdata (s : State) (n : Nat) : (countDown s n).hRdata = s.hRdata := rfl
@[simp] theorem countDown_bit (s : State) (n : Nat) : (countDown s n).bit = s.bit := rfl
@[simp] theorem countDown_todo (s : State) (n : Nat) : (countDown s n).todo = s.todo := rfl
@[simp] theorem countDown_cause (s : State) (n : Nat) : (countDown s n).cause = s.cause := rfl
@[simp] theorem countDown_script (s : State) (n : Nat) : (countDown s n).script = s.script := rfl
@[simp] theorem countDown_draws (s : State) (n : Nat) : (countDown s n).draws = s.draws := rfl
@[simp] theorem countDown_picks (s : State) (n : Nat) : (countDown s n).picks = s.picks := rfl
@[simp] theorem countDown_inputs (s : State) (n : Nat) : (countDown s n).inputs = s.inputs := rfl
@[simp] theorem countDown_log (s : State) (n : Nat) : (countDown s n).log = pushWait 1 s.log := rfl

/-! `loadShift` -/
@[simp] theorem loadShift_oe (x : Byte) (s : State) : (loadShift x s).oe = s.oe := rfl
@[simp] theorem loadShift_ok (x : Byte) (s : State) : (loadShift x s).ok = s.ok := rfl
@[simp] theorem loadShift_arg0 (x : Byte) (s : State) : (loadShift x s).arg0 = s.arg0 := rfl
@[simp] theorem loadShift_arg1 (x : Byte) (s : State) : (loadShift x s).arg1 = s.arg1 := rfl
@[simp] theorem loadShift_res0 (x : Byte) (s : State) : (loadShift x s).res0 = s.res0 := rfl
@[simp] theorem loadShift_res1 (x : Byte) (s : State) : (loadShift x s).res1 = s.res1 := rfl
@[simp] theorem loadShift_buf (x : Byte) (s : State) : (loadShift x s).buf = s.buf := rfl
@[simp] theorem loadShift_phase (x : Byte) (s : State) : (loadShift x s).phase = s.phase := rfl
@[simp] theorem loadShift_opL (x : Byte) (s : State) : (loadShift x s).opL = s.opL := rfl
@[simp] theorem loadShift_aL (x : Byte) (s : State) : (loadShift x s).aL = s.aL := rfl
@[simp] theorem loadShift_bL (x : Byte) (s : State) : (loadShift x s).bL = s.bL := rfl
@[simp] theorem loadShift_sr (x : Byte) (s : State) : (loadShift x s).sr = x := rfl
@[simp] theorem loadShift_bitcnt (x : Byte) (s : State) : (loadShift x s).bitcnt = 8 := rfl
@[simp] theorem loadShift_bytecnt (x : Byte) (s : State) : (loadShift x s).bytecnt = s.bytecnt := rfl
@[simp] theorem loadShift_timer (x : Byte) (s : State) : (loadShift x s).timer = s.timer := rfl
@[simp] theorem loadShift_rom (x : Byte) (s : State) : (loadShift x s).rom = s.rom := rfl
@[simp] theorem loadShift_crcAcc (x : Byte) (s : State) : (loadShift x s).crcAcc = s.crcAcc := rfl
@[simp] theorem loadShift_hRdata (x : Byte) (s : State) : (loadShift x s).hRdata = s.hRdata := rfl
@[simp] theorem loadShift_bit (x : Byte) (s : State) : (loadShift x s).bit = s.bit := rfl
@[simp] theorem loadShift_todo (x : Byte) (s : State) : (loadShift x s).todo = s.todo := rfl
@[simp] theorem loadShift_cause (x : Byte) (s : State) : (loadShift x s).cause = s.cause := rfl
@[simp] theorem loadShift_script (x : Byte) (s : State) : (loadShift x s).script = s.script := rfl
@[simp] theorem loadShift_draws (x : Byte) (s : State) : (loadShift x s).draws = s.draws := rfl
@[simp] theorem loadShift_picks (x : Byte) (s : State) : (loadShift x s).picks = s.picks := rfl
@[simp] theorem loadShift_inputs (x : Byte) (s : State) : (loadShift x s).inputs = s.inputs := rfl
@[simp] theorem loadShift_log (x : Byte) (s : State) : (loadShift x s).log = s.log := rfl

/-! `shiftOut` -/
@[simp] theorem shiftOut_oe (s : State) : (shiftOut s).oe = s.oe := rfl
@[simp] theorem shiftOut_ok (s : State) : (shiftOut s).ok = s.ok := rfl
@[simp] theorem shiftOut_arg0 (s : State) : (shiftOut s).arg0 = s.arg0 := rfl
@[simp] theorem shiftOut_arg1 (s : State) : (shiftOut s).arg1 = s.arg1 := rfl
@[simp] theorem shiftOut_res0 (s : State) : (shiftOut s).res0 = s.res0 := rfl
@[simp] theorem shiftOut_res1 (s : State) : (shiftOut s).res1 = s.res1 := rfl
@[simp] theorem shiftOut_buf (s : State) : (shiftOut s).buf = s.buf := rfl
@[simp] theorem shiftOut_phase (s : State) : (shiftOut s).phase = s.phase := rfl
@[simp] theorem shiftOut_opL (s : State) : (shiftOut s).opL = s.opL := rfl
@[simp] theorem shiftOut_aL (s : State) : (shiftOut s).aL = s.aL := rfl
@[simp] theorem shiftOut_bL (s : State) : (shiftOut s).bL = s.bL := rfl
@[simp] theorem shiftOut_sr (s : State) : (shiftOut s).sr = s.sr >>> 1 := rfl
@[simp] theorem shiftOut_bitcnt (s : State) : (shiftOut s).bitcnt = s.bitcnt - 1 := rfl
@[simp] theorem shiftOut_bytecnt (s : State) : (shiftOut s).bytecnt = s.bytecnt := rfl
@[simp] theorem shiftOut_timer (s : State) : (shiftOut s).timer = s.timer := rfl
@[simp] theorem shiftOut_rom (s : State) : (shiftOut s).rom = s.rom := rfl
@[simp] theorem shiftOut_crcAcc (s : State) : (shiftOut s).crcAcc = s.crcAcc := rfl
@[simp] theorem shiftOut_hRdata (s : State) : (shiftOut s).hRdata = s.hRdata := rfl
@[simp] theorem shiftOut_bit (s : State) : (shiftOut s).bit = s.bit := rfl
@[simp] theorem shiftOut_todo (s : State) : (shiftOut s).todo = s.todo := rfl
@[simp] theorem shiftOut_cause (s : State) : (shiftOut s).cause = s.cause := rfl
@[simp] theorem shiftOut_script (s : State) : (shiftOut s).script = s.script := rfl
@[simp] theorem shiftOut_draws (s : State) : (shiftOut s).draws = s.draws := rfl
@[simp] theorem shiftOut_picks (s : State) : (shiftOut s).picks = s.picks := rfl
@[simp] theorem shiftOut_inputs (s : State) : (shiftOut s).inputs = s.inputs := rfl
@[simp] theorem shiftOut_log (s : State) : (shiftOut s).log = s.log := rfl

/-! `shiftIn` -/
@[simp] theorem shiftIn_oe (s : State) : (shiftIn s).oe = s.oe := rfl
@[simp] theorem shiftIn_ok (s : State) : (shiftIn s).ok = s.ok := rfl
@[simp] theorem shiftIn_arg0 (s : State) : (shiftIn s).arg0 = s.arg0 := rfl
@[simp] theorem shiftIn_arg1 (s : State) : (shiftIn s).arg1 = s.arg1 := rfl
@[simp] theorem shiftIn_res0 (s : State) : (shiftIn s).res0 = s.res0 := rfl
@[simp] theorem shiftIn_res1 (s : State) : (shiftIn s).res1 = s.res1 := rfl
@[simp] theorem shiftIn_buf (s : State) : (shiftIn s).buf = s.buf := rfl
@[simp] theorem shiftIn_phase (s : State) : (shiftIn s).phase = s.phase := rfl
@[simp] theorem shiftIn_opL (s : State) : (shiftIn s).opL = s.opL := rfl
@[simp] theorem shiftIn_aL (s : State) : (shiftIn s).aL = s.aL := rfl
@[simp] theorem shiftIn_bL (s : State) : (shiftIn s).bL = s.bL := rfl
@[simp] theorem shiftIn_sr (s : State) : (shiftIn s).sr = shiftInBit s.sr s.bit := rfl
@[simp] theorem shiftIn_bitcnt (s : State) : (shiftIn s).bitcnt = s.bitcnt - 1 := rfl
@[simp] theorem shiftIn_bytecnt (s : State) : (shiftIn s).bytecnt = s.bytecnt := rfl
@[simp] theorem shiftIn_timer (s : State) : (shiftIn s).timer = s.timer := rfl
@[simp] theorem shiftIn_rom (s : State) : (shiftIn s).rom = s.rom := rfl
@[simp] theorem shiftIn_crcAcc (s : State) : (shiftIn s).crcAcc = s.crcAcc := rfl
@[simp] theorem shiftIn_hRdata (s : State) : (shiftIn s).hRdata = s.hRdata := rfl
@[simp] theorem shiftIn_bit (s : State) : (shiftIn s).bit = s.bit := rfl
@[simp] theorem shiftIn_todo (s : State) : (shiftIn s).todo = s.todo := rfl
@[simp] theorem shiftIn_cause (s : State) : (shiftIn s).cause = s.cause := rfl
@[simp] theorem shiftIn_script (s : State) : (shiftIn s).script = s.script := rfl
@[simp] theorem shiftIn_draws (s : State) : (shiftIn s).draws = s.draws := rfl
@[simp] theorem shiftIn_picks (s : State) : (shiftIn s).picks = s.picks := rfl
@[simp] theorem shiftIn_inputs (s : State) : (shiftIn s).inputs = s.inputs := rfl
@[simp] theorem shiftIn_log (s : State) : (shiftIn s).log = s.log := rfl

/-! `startTransfer` -/
@[simp] theorem startTransfer_oe (n : Nat) (s : State) : (startTransfer n s).oe = s.oe := rfl
@[simp] theorem startTransfer_ok (n : Nat) (s : State) : (startTransfer n s).ok = s.ok := rfl
@[simp] theorem startTransfer_arg0 (n : Nat) (s : State) : (startTransfer n s).arg0 = s.arg0 := rfl
@[simp] theorem startTransfer_arg1 (n : Nat) (s : State) : (startTransfer n s).arg1 = s.arg1 := rfl
@[simp] theorem startTransfer_res0 (n : Nat) (s : State) : (startTransfer n s).res0 = s.res0 := rfl
@[simp] theorem startTransfer_res1 (n : Nat) (s : State) : (startTransfer n s).res1 = s.res1 := rfl
@[simp] theorem startTransfer_buf (n : Nat) (s : State) : (startTransfer n s).buf = s.buf := rfl
@[simp] theorem startTransfer_phase (n : Nat) (s : State) : (startTransfer n s).phase = s.phase := rfl
@[simp] theorem startTransfer_opL (n : Nat) (s : State) : (startTransfer n s).opL = s.opL := rfl
@[simp] theorem startTransfer_aL (n : Nat) (s : State) : (startTransfer n s).aL = s.aL := rfl
@[simp] theorem startTransfer_bL (n : Nat) (s : State) : (startTransfer n s).bL = s.bL := rfl
@[simp] theorem startTransfer_sr (n : Nat) (s : State) : (startTransfer n s).sr = s.sr := rfl
@[simp] theorem startTransfer_bitcnt (n : Nat) (s : State) : (startTransfer n s).bitcnt = s.bitcnt := rfl
@[simp] theorem startTransfer_bytecnt (n : Nat) (s : State) : (startTransfer n s).bytecnt = n := rfl
@[simp] theorem startTransfer_timer (n : Nat) (s : State) : (startTransfer n s).timer = s.timer := rfl
@[simp] theorem startTransfer_rom (n : Nat) (s : State) : (startTransfer n s).rom = s.rom := rfl
@[simp] theorem startTransfer_crcAcc (n : Nat) (s : State) : (startTransfer n s).crcAcc = s.crcAcc := rfl
@[simp] theorem startTransfer_hRdata (n : Nat) (s : State) : (startTransfer n s).hRdata = s.hRdata := rfl
@[simp] theorem startTransfer_bit (n : Nat) (s : State) : (startTransfer n s).bit = s.bit := rfl
@[simp] theorem startTransfer_todo (n : Nat) (s : State) : (startTransfer n s).todo = s.todo := rfl
@[simp] theorem startTransfer_cause (n : Nat) (s : State) : (startTransfer n s).cause = s.cause := rfl
@[simp] theorem startTransfer_script (n : Nat) (s : State) : (startTransfer n s).script = s.script := rfl
@[simp] theorem startTransfer_draws (n : Nat) (s : State) : (startTransfer n s).draws = s.draws := rfl
@[simp] theorem startTransfer_picks (n : Nat) (s : State) : (startTransfer n s).picks = s.picks := rfl
@[simp] theorem startTransfer_inputs (n : Nat) (s : State) : (startTransfer n s).inputs = s.inputs := rfl
@[simp] theorem startTransfer_log (n : Nat) (s : State) : (startTransfer n s).log = s.log := rfl

/-! `countByte` -/
@[simp] theorem countByte_oe (s : State) : (countByte s).oe = s.oe := rfl
@[simp] theorem countByte_ok (s : State) : (countByte s).ok = s.ok := rfl
@[simp] theorem countByte_arg0 (s : State) : (countByte s).arg0 = s.arg0 := rfl
@[simp] theorem countByte_arg1 (s : State) : (countByte s).arg1 = s.arg1 := rfl
@[simp] theorem countByte_res0 (s : State) : (countByte s).res0 = s.res0 := rfl
@[simp] theorem countByte_res1 (s : State) : (countByte s).res1 = s.res1 := rfl
@[simp] theorem countByte_buf (s : State) : (countByte s).buf = s.buf := rfl
@[simp] theorem countByte_phase (s : State) : (countByte s).phase = s.phase := rfl
@[simp] theorem countByte_opL (s : State) : (countByte s).opL = s.opL := rfl
@[simp] theorem countByte_aL (s : State) : (countByte s).aL = s.aL := rfl
@[simp] theorem countByte_bL (s : State) : (countByte s).bL = s.bL := rfl
@[simp] theorem countByte_sr (s : State) : (countByte s).sr = s.sr := rfl
@[simp] theorem countByte_bitcnt (s : State) : (countByte s).bitcnt = s.bitcnt := rfl
@[simp] theorem countByte_bytecnt (s : State) : (countByte s).bytecnt = s.bytecnt - 1 := rfl
@[simp] theorem countByte_timer (s : State) : (countByte s).timer = s.timer := rfl
@[simp] theorem countByte_rom (s : State) : (countByte s).rom = s.rom := rfl
@[simp] theorem countByte_crcAcc (s : State) : (countByte s).crcAcc = s.crcAcc := rfl
@[simp] theorem countByte_hRdata (s : State) : (countByte s).hRdata = s.hRdata := rfl
@[simp] theorem countByte_bit (s : State) : (countByte s).bit = s.bit := rfl
@[simp] theorem countByte_todo (s : State) : (countByte s).todo = s.todo := rfl
@[simp] theorem countByte_cause (s : State) : (countByte s).cause = s.cause := rfl
@[simp] theorem countByte_script (s : State) : (countByte s).script = s.script := rfl
@[simp] theorem countByte_draws (s : State) : (countByte s).draws = s.draws := rfl
@[simp] theorem countByte_picks (s : State) : (countByte s).picks = s.picks := rfl
@[simp] theorem countByte_inputs (s : State) : (countByte s).inputs = s.inputs := rfl
@[simp] theorem countByte_log (s : State) : (countByte s).log = s.log := rfl

/-! `setConfig` -/
@[simp] theorem setConfig_oe (s : State) : (setConfig s).oe = s.oe := rfl
@[simp] theorem setConfig_ok (s : State) : (setConfig s).ok = s.ok := rfl
@[simp] theorem setConfig_arg0 (s : State) : (setConfig s).arg0 = s.arg0 := rfl
@[simp] theorem setConfig_arg1 (s : State) : (setConfig s).arg1 = s.arg1 := rfl
@[simp] theorem setConfig_res0 (s : State) : (setConfig s).res0 = s.res0 := rfl
@[simp] theorem setConfig_res1 (s : State) : (setConfig s).res1 = s.res1 := rfl
@[simp] theorem setConfig_buf (s : State) :
    (setConfig s).buf = s.buf.set 4 (.held (withResolution s.image[4] (resolutionOperand s.aL))) := rfl
@[simp] theorem setConfig_phase (s : State) : (setConfig s).phase = s.phase := rfl
@[simp] theorem setConfig_opL (s : State) : (setConfig s).opL = s.opL := rfl
@[simp] theorem setConfig_aL (s : State) : (setConfig s).aL = s.aL := rfl
@[simp] theorem setConfig_bL (s : State) : (setConfig s).bL = s.bL := rfl
@[simp] theorem setConfig_sr (s : State) : (setConfig s).sr = s.sr := rfl
@[simp] theorem setConfig_bitcnt (s : State) : (setConfig s).bitcnt = s.bitcnt := rfl
@[simp] theorem setConfig_bytecnt (s : State) : (setConfig s).bytecnt = s.bytecnt := rfl
@[simp] theorem setConfig_timer (s : State) : (setConfig s).timer = s.timer := rfl
@[simp] theorem setConfig_rom (s : State) : (setConfig s).rom = s.rom := rfl
@[simp] theorem setConfig_crcAcc (s : State) : (setConfig s).crcAcc = s.crcAcc := rfl
@[simp] theorem setConfig_hRdata (s : State) : (setConfig s).hRdata = s.hRdata := rfl
@[simp] theorem setConfig_bit (s : State) : (setConfig s).bit = s.bit := rfl
@[simp] theorem setConfig_todo (s : State) : (setConfig s).todo = s.todo := rfl
@[simp] theorem setConfig_cause (s : State) : (setConfig s).cause = s.cause := rfl
@[simp] theorem setConfig_script (s : State) : (setConfig s).script = s.script := rfl
@[simp] theorem setConfig_draws (s : State) : (setConfig s).draws = s.draws := rfl
@[simp] theorem setConfig_picks (s : State) : (setConfig s).picks = s.picks := rfl
@[simp] theorem setConfig_inputs (s : State) : (setConfig s).inputs = s.inputs := rfl
@[simp] theorem setConfig_log (s : State) : (setConfig s).log = s.log := rfl

/-! `flagsIssued` -/
@[simp] theorem flagsIssued_oe (p : Phase) (s : State) : (flagsIssued p s).oe = s.oe := rfl
@[simp] theorem flagsIssued_ok (p : Phase) (s : State) : (flagsIssued p s).ok = false := rfl
@[simp] theorem flagsIssued_arg0 (p : Phase) (s : State) : (flagsIssued p s).arg0 = s.arg0 := rfl
@[simp] theorem flagsIssued_arg1 (p : Phase) (s : State) : (flagsIssued p s).arg1 = s.arg1 := rfl
@[simp] theorem flagsIssued_res0 (p : Phase) (s : State) : (flagsIssued p s).res0 = s.res0 := rfl
@[simp] theorem flagsIssued_res1 (p : Phase) (s : State) : (flagsIssued p s).res1 = s.res1 := rfl
@[simp] theorem flagsIssued_buf (p : Phase) (s : State) : (flagsIssued p s).buf = s.buf := rfl
@[simp] theorem flagsIssued_phase (p : Phase) (s : State) : (flagsIssued p s).phase = p := rfl
@[simp] theorem flagsIssued_opL (p : Phase) (s : State) : (flagsIssued p s).opL = s.opL := rfl
@[simp] theorem flagsIssued_aL (p : Phase) (s : State) : (flagsIssued p s).aL = s.aL := rfl
@[simp] theorem flagsIssued_bL (p : Phase) (s : State) : (flagsIssued p s).bL = s.bL := rfl
@[simp] theorem flagsIssued_sr (p : Phase) (s : State) : (flagsIssued p s).sr = s.sr := rfl
@[simp] theorem flagsIssued_bitcnt (p : Phase) (s : State) : (flagsIssued p s).bitcnt = s.bitcnt := rfl
@[simp] theorem flagsIssued_bytecnt (p : Phase) (s : State) : (flagsIssued p s).bytecnt = s.bytecnt := rfl
@[simp] theorem flagsIssued_timer (p : Phase) (s : State) : (flagsIssued p s).timer = s.timer := rfl
@[simp] theorem flagsIssued_rom (p : Phase) (s : State) : (flagsIssued p s).rom = s.rom := rfl
@[simp] theorem flagsIssued_crcAcc (p : Phase) (s : State) : (flagsIssued p s).crcAcc = s.crcAcc := rfl
@[simp] theorem flagsIssued_hRdata (p : Phase) (s : State) : (flagsIssued p s).hRdata = s.hRdata := rfl
@[simp] theorem flagsIssued_bit (p : Phase) (s : State) : (flagsIssued p s).bit = s.bit := rfl
@[simp] theorem flagsIssued_todo (p : Phase) (s : State) : (flagsIssued p s).todo = s.todo := rfl
@[simp] theorem flagsIssued_cause (p : Phase) (s : State) : (flagsIssued p s).cause = s.cause := rfl
@[simp] theorem flagsIssued_script (p : Phase) (s : State) : (flagsIssued p s).script = s.script := rfl
@[simp] theorem flagsIssued_draws (p : Phase) (s : State) : (flagsIssued p s).draws = s.draws := rfl
@[simp] theorem flagsIssued_picks (p : Phase) (s : State) : (flagsIssued p s).picks = s.picks := rfl
@[simp] theorem flagsIssued_inputs (p : Phase) (s : State) : (flagsIssued p s).inputs = s.inputs := rfl
@[simp] theorem flagsIssued_log (p : Phase) (s : State) : (flagsIssued p s).log = s.log := rfl

/-! `flagsSucceeded` -/
@[simp] theorem flagsSucceeded_oe (s : State) : (flagsSucceeded s).oe = s.oe := rfl
@[simp] theorem flagsSucceeded_ok (s : State) : (flagsSucceeded s).ok = true := rfl
@[simp] theorem flagsSucceeded_arg0 (s : State) : (flagsSucceeded s).arg0 = s.arg0 := rfl
@[simp] theorem flagsSucceeded_arg1 (s : State) : (flagsSucceeded s).arg1 = s.arg1 := rfl
@[simp] theorem flagsSucceeded_res0 (s : State) : (flagsSucceeded s).res0 = s.res0 := rfl
@[simp] theorem flagsSucceeded_res1 (s : State) : (flagsSucceeded s).res1 = s.res1 := rfl
@[simp] theorem flagsSucceeded_buf (s : State) : (flagsSucceeded s).buf = s.buf := rfl
@[simp] theorem flagsSucceeded_phase (s : State) : (flagsSucceeded s).phase = .idle := rfl
@[simp] theorem flagsSucceeded_opL (s : State) : (flagsSucceeded s).opL = s.opL := rfl
@[simp] theorem flagsSucceeded_aL (s : State) : (flagsSucceeded s).aL = s.aL := rfl
@[simp] theorem flagsSucceeded_bL (s : State) : (flagsSucceeded s).bL = s.bL := rfl
@[simp] theorem flagsSucceeded_sr (s : State) : (flagsSucceeded s).sr = s.sr := rfl
@[simp] theorem flagsSucceeded_bitcnt (s : State) : (flagsSucceeded s).bitcnt = s.bitcnt := rfl
@[simp] theorem flagsSucceeded_bytecnt (s : State) : (flagsSucceeded s).bytecnt = s.bytecnt := rfl
@[simp] theorem flagsSucceeded_timer (s : State) : (flagsSucceeded s).timer = s.timer := rfl
@[simp] theorem flagsSucceeded_rom (s : State) : (flagsSucceeded s).rom = s.rom := rfl
@[simp] theorem flagsSucceeded_crcAcc (s : State) : (flagsSucceeded s).crcAcc = s.crcAcc := rfl
@[simp] theorem flagsSucceeded_hRdata (s : State) : (flagsSucceeded s).hRdata = s.hRdata := rfl
@[simp] theorem flagsSucceeded_bit (s : State) : (flagsSucceeded s).bit = s.bit := rfl
@[simp] theorem flagsSucceeded_todo (s : State) : (flagsSucceeded s).todo = s.todo := rfl
@[simp] theorem flagsSucceeded_cause (s : State) : (flagsSucceeded s).cause = s.cause := rfl
@[simp] theorem flagsSucceeded_script (s : State) : (flagsSucceeded s).script = s.script := rfl
@[simp] theorem flagsSucceeded_draws (s : State) : (flagsSucceeded s).draws = s.draws := rfl
@[simp] theorem flagsSucceeded_picks (s : State) : (flagsSucceeded s).picks = s.picks := rfl
@[simp] theorem flagsSucceeded_inputs (s : State) : (flagsSucceeded s).inputs = s.inputs := rfl
@[simp] theorem flagsSucceeded_log (s : State) : (flagsSucceeded s).log = s.log := rfl

/-! `flagsFailed` -/
@[simp] theorem flagsFailed_oe (s : State) : (flagsFailed s).oe = s.oe := rfl
@[simp] theorem flagsFailed_ok (s : State) : (flagsFailed s).ok = false := rfl
@[simp] theorem flagsFailed_arg0 (s : State) : (flagsFailed s).arg0 = s.arg0 := rfl
@[simp] theorem flagsFailed_arg1 (s : State) : (flagsFailed s).arg1 = s.arg1 := rfl
@[simp] theorem flagsFailed_res0 (s : State) : (flagsFailed s).res0 = s.res0 := rfl
@[simp] theorem flagsFailed_res1 (s : State) : (flagsFailed s).res1 = s.res1 := rfl
@[simp] theorem flagsFailed_buf (s : State) : (flagsFailed s).buf = s.buf := rfl
@[simp] theorem flagsFailed_phase (s : State) : (flagsFailed s).phase = .idle := rfl
@[simp] theorem flagsFailed_opL (s : State) : (flagsFailed s).opL = s.opL := rfl
@[simp] theorem flagsFailed_aL (s : State) : (flagsFailed s).aL = s.aL := rfl
@[simp] theorem flagsFailed_bL (s : State) : (flagsFailed s).bL = s.bL := rfl
@[simp] theorem flagsFailed_sr (s : State) : (flagsFailed s).sr = s.sr := rfl
@[simp] theorem flagsFailed_bitcnt (s : State) : (flagsFailed s).bitcnt = s.bitcnt := rfl
@[simp] theorem flagsFailed_bytecnt (s : State) : (flagsFailed s).bytecnt = s.bytecnt := rfl
@[simp] theorem flagsFailed_timer (s : State) : (flagsFailed s).timer = s.timer := rfl
@[simp] theorem flagsFailed_rom (s : State) : (flagsFailed s).rom = s.rom := rfl
@[simp] theorem flagsFailed_crcAcc (s : State) : (flagsFailed s).crcAcc = s.crcAcc := rfl
@[simp] theorem flagsFailed_hRdata (s : State) : (flagsFailed s).hRdata = s.hRdata := rfl
@[simp] theorem flagsFailed_bit (s : State) : (flagsFailed s).bit = s.bit := rfl
@[simp] theorem flagsFailed_todo (s : State) : (flagsFailed s).todo = s.todo := rfl
@[simp] theorem flagsFailed_cause (s : State) : (flagsFailed s).cause = s.cause := rfl
@[simp] theorem flagsFailed_script (s : State) : (flagsFailed s).script = s.script := rfl
@[simp] theorem flagsFailed_draws (s : State) : (flagsFailed s).draws = s.draws := rfl
@[simp] theorem flagsFailed_picks (s : State) : (flagsFailed s).picks = s.picks := rfl
@[simp] theorem flagsFailed_inputs (s : State) : (flagsFailed s).inputs = s.inputs := rfl
@[simp] theorem flagsFailed_log (s : State) : (flagsFailed s).log = s.log := rfl

/-! `flagsRefused` -/
@[simp] theorem flagsRefused_oe (s : State) : (flagsRefused s).oe = s.oe := rfl
@[simp] theorem flagsRefused_ok (s : State) : (flagsRefused s).ok = false := rfl
@[simp] theorem flagsRefused_arg0 (s : State) : (flagsRefused s).arg0 = s.arg0 := rfl
@[simp] theorem flagsRefused_arg1 (s : State) : (flagsRefused s).arg1 = s.arg1 := rfl
@[simp] theorem flagsRefused_res0 (s : State) : (flagsRefused s).res0 = s.res0 := rfl
@[simp] theorem flagsRefused_res1 (s : State) : (flagsRefused s).res1 = s.res1 := rfl
@[simp] theorem flagsRefused_buf (s : State) : (flagsRefused s).buf = s.buf := rfl
@[simp] theorem flagsRefused_phase (s : State) : (flagsRefused s).phase = s.phase := rfl
@[simp] theorem flagsRefused_opL (s : State) : (flagsRefused s).opL = s.opL := rfl
@[simp] theorem flagsRefused_aL (s : State) : (flagsRefused s).aL = s.aL := rfl
@[simp] theorem flagsRefused_bL (s : State) : (flagsRefused s).bL = s.bL := rfl
@[simp] theorem flagsRefused_sr (s : State) : (flagsRefused s).sr = s.sr := rfl
@[simp] theorem flagsRefused_bitcnt (s : State) : (flagsRefused s).bitcnt = s.bitcnt := rfl
@[simp] theorem flagsRefused_bytecnt (s : State) : (flagsRefused s).bytecnt = s.bytecnt := rfl
@[simp] theorem flagsRefused_timer (s : State) : (flagsRefused s).timer = s.timer := rfl
@[simp] theorem flagsRefused_rom (s : State) : (flagsRefused s).rom = s.rom := rfl
@[simp] theorem flagsRefused_crcAcc (s : State) : (flagsRefused s).crcAcc = s.crcAcc := rfl
@[simp] theorem flagsRefused_hRdata (s : State) : (flagsRefused s).hRdata = s.hRdata := rfl
@[simp] theorem flagsRefused_bit (s : State) : (flagsRefused s).bit = s.bit := rfl
@[simp] theorem flagsRefused_todo (s : State) : (flagsRefused s).todo = s.todo := rfl
@[simp] theorem flagsRefused_cause (s : State) : (flagsRefused s).cause = s.cause := rfl
@[simp] theorem flagsRefused_script (s : State) : (flagsRefused s).script = s.script := rfl
@[simp] theorem flagsRefused_draws (s : State) : (flagsRefused s).draws = s.draws := rfl
@[simp] theorem flagsRefused_picks (s : State) : (flagsRefused s).picks = s.picks := rfl
@[simp] theorem flagsRefused_inputs (s : State) : (flagsRefused s).inputs = s.inputs := rfl
@[simp] theorem flagsRefused_log (s : State) : (flagsRefused s).log = s.log := rfl

/-! `succeed` -/
@[simp] theorem succeed_oe (s : State) : (succeed s).oe = s.oe := rfl
@[simp] theorem succeed_ok (s : State) : (succeed s).ok = true := rfl
@[simp] theorem succeed_arg0 (s : State) : (succeed s).arg0 = s.arg0 := rfl
@[simp] theorem succeed_arg1 (s : State) : (succeed s).arg1 = s.arg1 := rfl
@[simp] theorem succeed_res0 (s : State) : (succeed s).res0 = s.res0 := rfl
@[simp] theorem succeed_res1 (s : State) : (succeed s).res1 = s.res1 := rfl
@[simp] theorem succeed_buf (s : State) : (succeed s).buf = s.buf := rfl
@[simp] theorem succeed_phase (s : State) : (succeed s).phase = .idle := rfl
@[simp] theorem succeed_opL (s : State) : (succeed s).opL = s.opL := rfl
@[simp] theorem succeed_aL (s : State) : (succeed s).aL = s.aL := rfl
@[simp] theorem succeed_bL (s : State) : (succeed s).bL = s.bL := rfl
@[simp] theorem succeed_sr (s : State) : (succeed s).sr = s.sr := rfl
@[simp] theorem succeed_bitcnt (s : State) : (succeed s).bitcnt = s.bitcnt := rfl
@[simp] theorem succeed_bytecnt (s : State) : (succeed s).bytecnt = s.bytecnt := rfl
@[simp] theorem succeed_timer (s : State) : (succeed s).timer = s.timer := rfl
@[simp] theorem succeed_rom (s : State) : (succeed s).rom = s.rom := rfl
@[simp] theorem succeed_crcAcc (s : State) : (succeed s).crcAcc = s.crcAcc := rfl
@[simp] theorem succeed_hRdata (s : State) : (succeed s).hRdata = s.hRdata := rfl
@[simp] theorem succeed_bit (s : State) : (succeed s).bit = s.bit := rfl
@[simp] theorem succeed_todo (s : State) : (succeed s).todo = s.todo := rfl
@[simp] theorem succeed_cause (s : State) : (succeed s).cause = s.cause := rfl
@[simp] theorem succeed_script (s : State) : (succeed s).script = s.script := rfl
@[simp] theorem succeed_draws (s : State) : (succeed s).draws = s.draws := rfl
@[simp] theorem succeed_picks (s : State) : (succeed s).picks = s.picks := rfl
@[simp] theorem succeed_inputs (s : State) : (succeed s).inputs = s.inputs := rfl
@[simp] theorem succeed_log (s : State) : (succeed s).log = s.log := rfl

/-! `refuse` -/
@[simp] theorem refuse_oe (s : State) : (refuse s).oe = s.oe := rfl
@[simp] theorem refuse_ok (s : State) : (refuse s).ok = false := rfl
@[simp] theorem refuse_arg0 (s : State) : (refuse s).arg0 = s.arg0 := rfl
@[simp] theorem refuse_arg1 (s : State) : (refuse s).arg1 = s.arg1 := rfl
@[simp] theorem refuse_res0 (s : State) : (refuse s).res0 = s.res0 := rfl
@[simp] theorem refuse_res1 (s : State) : (refuse s).res1 = s.res1 := rfl
@[simp] theorem refuse_buf (s : State) : (refuse s).buf = s.buf := rfl
@[simp] theorem refuse_phase (s : State) : (refuse s).phase = s.phase := rfl
@[simp] theorem refuse_opL (s : State) : (refuse s).opL = s.opL := rfl
@[simp] theorem refuse_aL (s : State) : (refuse s).aL = s.aL := rfl
@[simp] theorem refuse_bL (s : State) : (refuse s).bL = s.bL := rfl
@[simp] theorem refuse_sr (s : State) : (refuse s).sr = s.sr := rfl
@[simp] theorem refuse_bitcnt (s : State) : (refuse s).bitcnt = s.bitcnt := rfl
@[simp] theorem refuse_bytecnt (s : State) : (refuse s).bytecnt = s.bytecnt := rfl
@[simp] theorem refuse_timer (s : State) : (refuse s).timer = s.timer := rfl
@[simp] theorem refuse_rom (s : State) : (refuse s).rom = s.rom := rfl
@[simp] theorem refuse_crcAcc (s : State) : (refuse s).crcAcc = s.crcAcc := rfl
@[simp] theorem refuse_hRdata (s : State) : (refuse s).hRdata = s.hRdata := rfl
@[simp] theorem refuse_bit (s : State) : (refuse s).bit = s.bit := rfl
@[simp] theorem refuse_todo (s : State) : (refuse s).todo = s.todo := rfl
@[simp] theorem refuse_cause (s : State) : (refuse s).cause = s.cause := rfl
@[simp] theorem refuse_script (s : State) : (refuse s).script = s.script := rfl
@[simp] theorem refuse_draws (s : State) : (refuse s).draws = s.draws := rfl
@[simp] theorem refuse_picks (s : State) : (refuse s).picks = s.picks := rfl
@[simp] theorem refuse_inputs (s : State) : (refuse s).inputs = s.inputs := rfl
@[simp] theorem refuse_log (s : State) : (refuse s).log = s.log := rfl

/-! `afterSample` -/
@[simp] theorem afterSample_oe (s : State) : (afterSample s).oe = s.oe := by unfold afterSample; (repeat' split) <;> rfl
@[simp] theorem afterSample_ok (s : State) : (afterSample s).ok = s.ok := by unfold afterSample; (repeat' split) <;> rfl
@[simp] theorem afterSample_arg0 (s : State) : (afterSample s).arg0 = s.arg0 := by unfold afterSample; (repeat' split) <;> rfl
@[simp] theorem afterSample_arg1 (s : State) : (afterSample s).arg1 = s.arg1 := by unfold afterSample; (repeat' split) <;> rfl
@[simp] theorem afterSample_res0 (s : State) : (afterSample s).res0 = s.res0 := by unfold afterSample; (repeat' split) <;> rfl
@[simp] theorem afterSample_res1 (s : State) : (afterSample s).res1 = s.res1 := by unfold afterSample; (repeat' split) <;> rfl
@[simp] theorem afterSample_buf (s : State) : (afterSample s).buf = s.buf := by unfold afterSample; (repeat' split) <;> rfl
@[simp] theorem afterSample_phase (s : State) : (afterSample s).phase = s.phase := by unfold afterSample; (repeat' split) <;> rfl
@[simp] theorem afterSample_opL (s : State) : (afterSample s).opL = s.opL := by unfold afterSample; (repeat' split) <;> rfl
@[simp] theorem afterSample_aL (s : State) : (afterSample s).aL = s.aL := by unfold afterSample; (repeat' split) <;> rfl
@[simp] theorem afterSample_bL (s : State) : (afterSample s).bL = s.bL := by unfold afterSample; (repeat' split) <;> rfl
@[simp] theorem afterSample_sr (s : State) : (afterSample s).sr = s.sr := by unfold afterSample; (repeat' split) <;> rfl
@[simp] theorem afterSample_bitcnt (s : State) : (afterSample s).bitcnt = s.bitcnt := by unfold afterSample; (repeat' split) <;> rfl
@[simp] theorem afterSample_bytecnt (s : State) : (afterSample s).bytecnt = s.bytecnt := by unfold afterSample; (repeat' split) <;> rfl
@[simp] theorem afterSample_timer (s : State) : (afterSample s).timer = s.timer := by unfold afterSample; (repeat' split) <;> rfl
@[simp] theorem afterSample_rom (s : State) : (afterSample s).rom = s.rom := by unfold afterSample; (repeat' split) <;> rfl
@[simp] theorem afterSample_crcAcc (s : State) : (afterSample s).crcAcc = s.crcAcc := by unfold afterSample; (repeat' split) <;> rfl
@[simp] theorem afterSample_hRdata (s : State) : (afterSample s).hRdata = s.hRdata := by unfold afterSample; (repeat' split) <;> rfl
@[simp] theorem afterSample_bit (s : State) : (afterSample s).bit = s.bit := by unfold afterSample; (repeat' split) <;> rfl
@[simp] theorem afterSample_todo (s : State) : (afterSample s).todo = s.todo := by unfold afterSample; (repeat' split) <;> rfl
@[simp] theorem afterSample_cause (s : State) : (afterSample s).cause = s.cause := by unfold afterSample; (repeat' split) <;> rfl
@[simp] theorem afterSample_picks (s : State) : (afterSample s).picks = s.picks := by unfold afterSample; (repeat' split) <;> rfl
@[simp] theorem afterSample_inputs (s : State) : (afterSample s).inputs = s.inputs := by unfold afterSample; (repeat' split) <;> rfl
@[simp] theorem afterSample_log (s : State) : (afterSample s).log = s.log := by unfold afterSample; (repeat' split) <;> rfl

/-! `releaseIfLow` -/
@[simp] theorem releaseIfLow_ok (s : State) : (releaseIfLow s).ok = s.ok := by unfold releaseIfLow; split <;> rfl
@[simp] theorem releaseIfLow_arg0 (s : State) : (releaseIfLow s).arg0 = s.arg0 := by unfold releaseIfLow; split <;> rfl
@[simp] theorem releaseIfLow_arg1 (s : State) : (releaseIfLow s).arg1 = s.arg1 := by unfold releaseIfLow; split <;> rfl
@[simp] theorem releaseIfLow_res0 (s : State) : (releaseIfLow s).res0 = s.res0 := by unfold releaseIfLow; split <;> rfl
@[simp] theorem releaseIfLow_res1 (s : State) : (releaseIfLow s).res1 = s.res1 := by unfold releaseIfLow; split <;> rfl
@[simp] theorem releaseIfLow_buf (s : State) : (releaseIfLow s).buf = s.buf := by unfold releaseIfLow; split <;> rfl
@[simp] theorem releaseIfLow_phase (s : State) : (releaseIfLow s).phase = s.phase := by unfold releaseIfLow; split <;> rfl
@[simp] theorem releaseIfLow_opL (s : State) : (releaseIfLow s).opL = s.opL := by unfold releaseIfLow; split <;> rfl
@[simp] theorem releaseIfLow_aL (s : State) : (releaseIfLow s).aL = s.aL := by unfold releaseIfLow; split <;> rfl
@[simp] theorem releaseIfLow_bL (s : State) : (releaseIfLow s).bL = s.bL := by unfold releaseIfLow; split <;> rfl
@[simp] theorem releaseIfLow_sr (s : State) : (releaseIfLow s).sr = s.sr := by unfold releaseIfLow; split <;> rfl
@[simp] theorem releaseIfLow_bitcnt (s : State) : (releaseIfLow s).bitcnt = s.bitcnt := by unfold releaseIfLow; split <;> rfl
@[simp] theorem releaseIfLow_bytecnt (s : State) : (releaseIfLow s).bytecnt = s.bytecnt := by unfold releaseIfLow; split <;> rfl
@[simp] theorem releaseIfLow_timer (s : State) : (releaseIfLow s).timer = s.timer := by unfold releaseIfLow; split <;> rfl
@[simp] theorem releaseIfLow_rom (s : State) : (releaseIfLow s).rom = s.rom := by unfold releaseIfLow; split <;> rfl
@[simp] theorem releaseIfLow_crcAcc (s : State) : (releaseIfLow s).crcAcc = s.crcAcc := by unfold releaseIfLow; split <;> rfl
@[simp] theorem releaseIfLow_hRdata (s : State) : (releaseIfLow s).hRdata = s.hRdata := by unfold releaseIfLow; split <;> rfl
@[simp] theorem releaseIfLow_bit (s : State) : (releaseIfLow s).bit = s.bit := by unfold releaseIfLow; split <;> rfl
@[simp] theorem releaseIfLow_todo (s : State) : (releaseIfLow s).todo = s.todo := by unfold releaseIfLow; split <;> rfl
@[simp] theorem releaseIfLow_cause (s : State) : (releaseIfLow s).cause = s.cause := by unfold releaseIfLow; split <;> rfl
@[simp] theorem releaseIfLow_script (s : State) : (releaseIfLow s).script = s.script := by unfold releaseIfLow; split <;> rfl
@[simp] theorem releaseIfLow_draws (s : State) : (releaseIfLow s).draws = s.draws := by unfold releaseIfLow; split <;> rfl
@[simp] theorem releaseIfLow_picks (s : State) : (releaseIfLow s).picks = s.picks := by unfold releaseIfLow; split <;> rfl
@[simp] theorem releaseIfLow_inputs (s : State) : (releaseIfLow s).inputs = s.inputs := by unfold releaseIfLow; split <;> rfl

/-! `scrapResults` -/
@[simp] theorem scrapResults_oe (s : State) : (scrapResults s).oe = s.oe := by unfold scrapResults; (repeat' split) <;> rfl
@[simp] theorem scrapResults_ok (s : State) : (scrapResults s).ok = s.ok := by unfold scrapResults; (repeat' split) <;> rfl
@[simp] theorem scrapResults_arg0 (s : State) : (scrapResults s).arg0 = s.arg0 := by unfold scrapResults; (repeat' split) <;> rfl
@[simp] theorem scrapResults_arg1 (s : State) : (scrapResults s).arg1 = s.arg1 := by unfold scrapResults; (repeat' split) <;> rfl
@[simp] theorem scrapResults_phase (s : State) : (scrapResults s).phase = s.phase := by unfold scrapResults; (repeat' split) <;> rfl
@[simp] theorem scrapResults_opL (s : State) : (scrapResults s).opL = s.opL := by unfold scrapResults; (repeat' split) <;> rfl
@[simp] theorem scrapResults_aL (s : State) : (scrapResults s).aL = s.aL := by unfold scrapResults; (repeat' split) <;> rfl
@[simp] theorem scrapResults_bL (s : State) : (scrapResults s).bL = s.bL := by unfold scrapResults; (repeat' split) <;> rfl
@[simp] theorem scrapResults_sr (s : State) : (scrapResults s).sr = s.sr := by unfold scrapResults; (repeat' split) <;> rfl
@[simp] theorem scrapResults_bitcnt (s : State) : (scrapResults s).bitcnt = s.bitcnt := by unfold scrapResults; (repeat' split) <;> rfl
@[simp] theorem scrapResults_bytecnt (s : State) : (scrapResults s).bytecnt = s.bytecnt := by unfold scrapResults; (repeat' split) <;> rfl
@[simp] theorem scrapResults_timer (s : State) : (scrapResults s).timer = s.timer := by unfold scrapResults; (repeat' split) <;> rfl
@[simp] theorem scrapResults_rom (s : State) : (scrapResults s).rom = s.rom := by unfold scrapResults; (repeat' split) <;> rfl
@[simp] theorem scrapResults_crcAcc (s : State) : (scrapResults s).crcAcc = s.crcAcc := by unfold scrapResults; (repeat' split) <;> rfl
@[simp] theorem scrapResults_hRdata (s : State) : (scrapResults s).hRdata = s.hRdata := by unfold scrapResults; (repeat' split) <;> rfl
@[simp] theorem scrapResults_bit (s : State) : (scrapResults s).bit = s.bit := by unfold scrapResults; (repeat' split) <;> rfl
@[simp] theorem scrapResults_todo (s : State) : (scrapResults s).todo = s.todo := by unfold scrapResults; (repeat' split) <;> rfl
@[simp] theorem scrapResults_cause (s : State) : (scrapResults s).cause = s.cause := by unfold scrapResults; (repeat' split) <;> rfl
@[simp] theorem scrapResults_script (s : State) : (scrapResults s).script = s.script := by unfold scrapResults; (repeat' split) <;> rfl
@[simp] theorem scrapResults_picks (s : State) : (scrapResults s).picks = s.picks := by unfold scrapResults; (repeat' split) <;> rfl
@[simp] theorem scrapResults_draws (s : State) : (scrapResults s).draws = s.draws := by unfold scrapResults; (repeat' split) <;> rfl
@[simp] theorem scrapResults_inputs (s : State) : (scrapResults s).inputs = s.inputs := by unfold scrapResults; (repeat' split) <;> rfl
@[simp] theorem scrapResults_log (s : State) : (scrapResults s).log = s.log := by unfold scrapResults; (repeat' split) <;> rfl

/-! `hostRead` -/
@[simp] theorem hostRead_oe (off : Offset) (s : State) : (hostRead off s).oe = s.oe := rfl
@[simp] theorem hostRead_ok (off : Offset) (s : State) : (hostRead off s).ok = s.ok := rfl
@[simp] theorem hostRead_arg0 (off : Offset) (s : State) : (hostRead off s).arg0 = s.arg0 := rfl
@[simp] theorem hostRead_arg1 (off : Offset) (s : State) : (hostRead off s).arg1 = s.arg1 := rfl
@[simp] theorem hostRead_res0 (off : Offset) (s : State) : (hostRead off s).res0 = s.res0 := rfl
@[simp] theorem hostRead_res1 (off : Offset) (s : State) : (hostRead off s).res1 = s.res1 := rfl
@[simp] theorem hostRead_buf (off : Offset) (s : State) : (hostRead off s).buf = s.buf := rfl
@[simp] theorem hostRead_phase (off : Offset) (s : State) : (hostRead off s).phase = s.phase := rfl
@[simp] theorem hostRead_opL (off : Offset) (s : State) : (hostRead off s).opL = s.opL := rfl
@[simp] theorem hostRead_aL (off : Offset) (s : State) : (hostRead off s).aL = s.aL := rfl
@[simp] theorem hostRead_bL (off : Offset) (s : State) : (hostRead off s).bL = s.bL := rfl
@[simp] theorem hostRead_sr (off : Offset) (s : State) : (hostRead off s).sr = s.sr := rfl
@[simp] theorem hostRead_bitcnt (off : Offset) (s : State) : (hostRead off s).bitcnt = s.bitcnt := rfl
@[simp] theorem hostRead_bytecnt (off : Offset) (s : State) : (hostRead off s).bytecnt = s.bytecnt := rfl
@[simp] theorem hostRead_timer (off : Offset) (s : State) : (hostRead off s).timer = s.timer := rfl
@[simp] theorem hostRead_rom (off : Offset) (s : State) : (hostRead off s).rom = s.rom := rfl
@[simp] theorem hostRead_crcAcc (off : Offset) (s : State) : (hostRead off s).crcAcc = s.crcAcc := rfl
@[simp] theorem hostRead_bit (off : Offset) (s : State) : (hostRead off s).bit = s.bit := rfl
@[simp] theorem hostRead_todo (off : Offset) (s : State) : (hostRead off s).todo = s.todo := rfl
@[simp] theorem hostRead_cause (off : Offset) (s : State) : (hostRead off s).cause = s.cause := rfl
@[simp] theorem hostRead_script (off : Offset) (s : State) : (hostRead off s).script = s.script := rfl
@[simp] theorem hostRead_draws (off : Offset) (s : State) : (hostRead off s).draws = s.draws := rfl
@[simp] theorem hostRead_inputs (off : Offset) (s : State) : (hostRead off s).inputs = s.inputs := rfl
@[simp] theorem hostRead_log (off : Offset) (s : State) : (hostRead off s).log = s.log := rfl

/-! Both branches of a conditional update leave the line released. -/
@[simp] theorem releaseIfLow_oe (s : State) : (releaseIfLow s).oe = false := by
  unfold releaseIfLow; split <;> simp_all

/-! `BUSY` and `STATUS` are computed from `phase` and `ok`. -/
theorem busy_iff (s : State) : s.busy = true ↔ s.phase ≠ .idle := by simp [State.busy]
theorem not_busy_iff (s : State) : s.busy = false ↔ s.phase = .idle := by simp [State.busy]

end Sys2Proof.Machine
end

