-- ==== Sys2Proof/Laws/Trace.lean ====
section
/-!
SUPPORT. Laws of the trace: what a wait puts on it, and that the waits of the slots are never empty.
-/

namespace Sys2Proof.Machine

@[simp] theorem pushWait_zero (l : List LineAction) : pushWait 0 l = l := rfl

/-- A wait after an action that is no wait stands on its own. -/
theorem pushWait_after (n : Nat) (h : 0 < n) (a : LineAction) (ha : ∀ m, a ≠ .wait m) (l : List LineAction) :
    pushWait n (a :: l) = .wait n :: a :: l := by
  obtain ⟨k, rfl⟩ : ∃ k, n = k + 1 := ⟨n - 1, by omega⟩
  cases a <;> simp_all [pushWait]

@[simp] theorem pushWait_low {n : Nat} (h : 0 < n) (l : List LineAction) :
    pushWait n (.low :: l) = .wait n :: .low :: l := pushWait_after n h _ (by simp) l

@[simp] theorem pushWait_rel {n : Nat} (h : 0 < n) (l : List LineAction) :
    pushWait n (.rel :: l) = .wait n :: .rel :: l := pushWait_after n h _ (by simp) l

@[simp] theorem pushWait_sampled {n : Nat} (h : 0 < n) (b : Bool) (l : List LineAction) :
    pushWait n (.sampled b :: l) = .wait n :: .sampled b :: l := pushWait_after n h _ (by simp) l

/-- Two waits are one wait (R80). -/
theorem pushWait_pushWait (m n : Nat) (l : List LineAction) : pushWait n (pushWait m l) = pushWait (m + n) l := by
  cases n with
  | zero => simp
  | succ n =>
    cases m with
    | zero => simp
    | succ m =>
      rw [show m + 1 + (n + 1) = (m + 1 + n) + 1 by omega]
      match l with
      | [] => rfl
      | .wait k :: _ => simp only [pushWait]; congr 2; omega
      | .low :: _ | .rel :: _ | .sampled _ :: _ => rfl

/-- A wait keeps the canonical form (R80). -/
theorem canonicalLog_pushWait (n : Nat) (l : List LineAction) (h : canonicalLog l = true) :
    canonicalLog (pushWait n l) = true := by
  cases n with
  | zero => exact h
  | succ n =>
    match l with
    | [] => rfl
    | [.wait m] => simp [pushWait, canonicalLog]
    | .wait m :: .wait k :: l => simp [canonicalLog] at h
    | .wait m :: .low :: l | .wait m :: .rel :: l | .wait m :: .sampled _ :: l =>
      simp [pushWait, canonicalLog] at h ⊢; exact h.2
    | .low :: l | .rel :: l | .sampled _ :: l => simpa [pushWait, canonicalLog] using h

/-- A wait says nothing about the drive state. -/
@[simp] theorem driveAfter_pushWait (n : Nat) (l : List LineAction) : driveAfter (pushWait n l) = driveAfter l := by
  cases n with
  | zero => rfl
  | succ n => match l with
    | [] => rfl
    | .wait _ :: _ => rfl
    | .low :: _ | .rel :: _ | .sampled _ :: _ => rfl

theorem lowTime_pos (v : Bool) : 0 < lowTime v := by cases v <;> decide
theorem restTime_pos (v : Bool) : 0 < restTime v := by unfold restTime Config.tRec; omega
theorem readRestTime_pos : 0 < readRestTime := by unfold readRestTime Config.tRec; omega
theorem tRl_pos : 0 < Config.tRl := by decide
theorem tRds_pos : 0 < Config.tRds := by decide
theorem tRstl_pos : 0 < Config.tRstl := by unfold Config.tRstl; omega
theorem tPds_pos : 0 < Config.tPds := by unfold Config.tPds; omega

/-- What a wait of any length leaves after a sample. -/
theorem pushWait_waitTrace (n : Nat) (b : Bool) (l : List LineAction) :
    pushWait n (.sampled b :: l) = (waitTrace n).reverse ++ .sampled b :: l := by
  unfold waitTrace
  split
  · subst n; rfl
  · rw [pushWait_sampled (by omega)]; rfl

end Sys2Proof.Machine
end

