-- ==== Sys2Proof/Laws/Sequencer.lean ====
section
/-!
SUPPORT. Laws of the sequencer: a program runs part after part, and what each straight piece of a procedure does.
-/

namespace Sys2Proof.Machine

/-- A program in two parts: the second part runs if the first has not ended the operation. -/
theorem runActs_append (p q : List Act) (s : State) (h : s.busy = true) :
    runActs (p ++ q) s = if (runActs p s).busy then runActs q (runActs p s) else runActs p s := by
  induction p generalizing s with
  | nil => simp [runActs, h]
  | cons a p ih =>
    simp only [List.cons_append, runActs]
    by_cases hb : (act a s).busy = true
    · simp only [hb, if_true, ih _ hb]
    · simp only [hb]
      simp [hb]

/-- The second part runs from where the first part leaves a busy block. -/
theorem runActs_then (p q : List Act) (s s' : State) (h : s.busy = true) (hp : runActs p s = s')
    (h' : s'.busy = true) : runActs (p ++ q) s = runActs q s' := by
  rw [runActs_append p q s h, hp, if_pos h']

/-- Nothing runs after a part that ends the operation. -/
theorem runActs_ends (p q : List Act) (s s' : State) (h : s.busy = true) (hp : runActs p s = s')
    (h' : s'.busy = false) : runActs (p ++ q) s = s' := by
  rw [runActs_append p q s h, hp, if_neg (by simp [h'])]

/-- The last micro-action of every operation that has not failed (R9). -/
theorem runActs_succeed (s : State) : runActs [.succeed] s = succeed s := by
  exact if_neg (show ¬ (succeed s).busy = true by simp [State.busy])

/-- A straight program is run as its micro-actions. -/
theorem run_straight (p : List Act) (s : State) :
    run (straight p) s = { runActs p s with todo := [] } := by
  induction p generalizing s with
  | nil => rfl
  | cons a p ih =>
    simp only [straight, List.map_cons, run, runActs]
    by_cases hb : (act a s).busy = true
    · simp only [hb, if_true]; exact ih _
    · simp only [hb]; simp

/-- A program that begins straight. -/
theorem run_straight_append (p : List Act) (m : List Micro) (s : State) (h : s.busy = true) :
    run (straight p ++ m) s =
      if (runActs p s).busy then run m (runActs p s) else { runActs p s with todo := [] } := by
  induction p generalizing s with
  | nil => simp [straight, runActs, h]
  | cons a p ih =>
    simp only [straight, List.map_cons, List.cons_append, run, runActs]
    by_cases hb : (act a s).busy = true
    · simp only [hb, if_true]; exact ih _ hb
    · simp only [hb]; simp [hb]

/-- The state in which an operation that was issued in `s` starts (R43). -/
def issued (opcode : Byte) (first : Phase) (program : List Micro) (s : State) : State :=
  { s with
    phase := first, ok := false, opL := opcode, aL := s.operandA, bL := s.operandB, picks := s.latchedPicks
    todo := program, cause := none }

/-- An operation starts with the block busy: its first phase is not `Idle` (R43). -/
theorem issued_busy (opcode : Byte) (first : Phase) (program : List Micro) (s : State) (h : first ≠ .idle) :
    (issued opcode first program s).busy = true := by simpa [issued, State.busy] using h

/-- The issue does not touch the environment. -/
@[simp] theorem issued_upcoming (opcode : Byte) (first : Phase) (program : List Micro) (s : State) (n : Nat) :
    (issued opcode first program s).upcoming n = s.upcoming n := rfl

/-- What the issue of an operation does in `Idle` (R43). -/
theorem issue_of_idle (opcode : Byte) (first : Phase) (program : List Micro) (s : State) (h : Idle s) :
    issue opcode first program s = issued opcode first program s := by
  simp [issue, issued, State.busy, show s.phase = .idle from h, flagsIssued]

/-- An operation, issued in `Idle` and waited for. -/
theorem operate_issue (opcode : Byte) (first : Phase) (program : List Micro) (s : State) (h : Idle s) :
    operate (issue opcode first program) s = run program (issued opcode first program s) := by
  have hb : s.busy = false := (not_busy_iff s).2 h
  simp [operate, hb, complete, issue_of_idle _ _ _ _ h, issued]

/-- A straight operation, issued in `Idle` and waited for. -/
theorem operate_straight (opcode : Byte) (first : Phase) (p : List Act) (s : State) (h : Idle s) :
    operate (issue opcode first (straight p)) s =
      { runActs p (issued opcode first (straight p) s) with todo := [] } := by
  rw [operate_issue _ _ _ _ h, run_straight]

/-! The straight pieces. -/

/-- One write slot (R90). -/
theorem runActs_writeSlot (s : State) (h : s.busy = true) :
    runActs writeSlot s =
      { s with oe := false, timer := 0, log := (writeSlotTrace s.bit).reverse ++ s.log } := by
  have hp : s.phase ≠ .idle := (busy_iff s).1 h
  simp [writeSlot, runActs, act, driveLow, release, waitFor, State.busy, hp, writeSlotTrace,
    pushWait_low (lowTime_pos s.bit), pushWait_rel (restTime_pos s.bit)]

/-- The level a released line answers with (R82). -/
def answer (s : State) : Bool := lineLevel { s with oe := false }

/-- The environment after one answer. -/
theorem afterSample_released (s : State) (h : s.oe = false) : afterSample s = consume 1 s := by
  cases hs : s.script <;> simp [afterSample, consume, hs, h]

theorem upcoming_succ (n : Nat) (s : State) : s.upcoming (n + 1) = answer s :: (consume 1 s).upcoming n := by
  cases hs : s.script <;> simp [State.upcoming, upcomingOf, answer, lineLevel, consume, hs]

/-- The answers to come depend on the environment alone. -/
theorem upcoming_congr {s t : State} (h1 : t.script = s.script) (h2 : t.draws = s.draws) (n : Nat) :
    t.upcoming n = s.upcoming n := by rw [State.upcoming, State.upcoming, h1, h2]

theorem consume_zero (s : State) : consume 0 s = s := by simp [consume]

theorem consume_consume (m n : Nat) (s : State) : consume n (consume m s) = consume (m + n) s := by
  simp only [consume, List.drop_drop, List.length_drop]
  congr 1
  omega

theorem upcoming_add (m n : Nat) (s : State) : s.upcoming (m + n) = s.upcoming m ++ (consume m s).upcoming n := by
  induction m generalizing s with
  | zero => simp [State.upcoming, upcomingOf, consume_zero]
  | succ m ih =>
    rw [show m + 1 + n = (m + n) + 1 by omega, upcoming_succ, upcoming_succ, ih, consume_consume, List.cons_append,
      Nat.add_comm 1 m]

theorem upcoming_length (n : Nat) (s : State) : (s.upcoming n).length = n := by
  induction n generalizing s with
  | zero => rfl
  | succ n ih => rw [upcoming_succ, List.length_cons, ih]

/-- The answers taken in two parts. -/
theorem upcoming_split {m n : Nat} {s : State} {xs ys : List Bool} (h : s.upcoming (m + n) = xs ++ ys)
    (hx : xs.length = m) : s.upcoming m = xs ∧ (consume m s).upcoming n = ys := by
  rw [upcoming_add] at h
  exact List.append_inj h (by rw [upcoming_length, hx])

/-- Listed answers are the ones that come. -/
theorem upcoming_script (xs more : List Bool) (s : State) (h : s.script = xs ++ more) :
    s.upcoming xs.length = xs := by
  simp only [State.upcoming, h]
  generalize s.draws = d
  clear h
  induction xs with
  | nil => rfl
  | cons x xs ih => simp [upcomingOf, ih]

/-- One read slot, whatever answers (R91). -/
theorem runActs_readSlot (s : State) (h : s.busy = true) :
    runActs readSlot s =
      { consume 1 s with oe := false, timer := 0, bit := answer s
                         log := (readSlotTrace (answer s)).reverse ++ s.log } := by
  have hp : s.phase ≠ .idle := (busy_iff s).1 h
  simp [readSlot, runActs, act, driveLow, release, waitFor, sampleLine, afterSample_released, lineLevel, State.busy, hp,
    readSlotTrace, answer, consume, pushWait_low tRl_pos, pushWait_rel tRds_pos, pushWait_sampled readRestTime_pos]

/-- What one turn of `write_byte` does (R92). -/
def writeTurn (s : State) : State :=
  { s with oe := false, timer := 0, bit := s.sr.getLsbD 0, sr := s.sr >>> 1, bitcnt := s.bitcnt - 1
           log := (writeSlotTrace (s.sr.getLsbD 0)).reverse ++ s.log }

/-- What one turn of `read_byte` does (R93). -/
def readTurn (s : State) : State :=
  { consume 1 s with oe := false, timer := 0, bit := answer s, sr := shiftInBit s.sr (answer s)
                     bitcnt := s.bitcnt - 1, log := (readSlotTrace (answer s)).reverse ++ s.log }

theorem writeTurn_busy (s : State) : (writeTurn s).busy = s.busy := rfl
theorem readTurn_busy (s : State) : (readTurn s).busy = s.busy := rfl

/-- One turn of `write_byte` (R92). -/
theorem runActs_writeTurn (s : State) (h : s.busy = true) :
    runActs (.bitFromSr :: (writeSlot ++ [.shiftOut])) s = writeTurn s := by
  have hp : s.phase ≠ .idle := (busy_iff s).1 h
  have hb : (act .bitFromSr s).busy = true := by simpa [act, State.busy] using hp
  rw [runActs, if_pos hb, runActs_then _ _ _ _ hb (runActs_writeSlot _ hb) (by simpa [act, State.busy] using hp)]
  simp [runActs, act, shiftOut, State.busy, hp, writeTurn]

/-- A repeated program whose turn is a known function. -/
theorem runActs_repeat (p : List Act) (f : State → State) (hf : ∀ s, (f s).busy = s.busy)
    (hp : ∀ s, s.busy = true → runActs p s = f s) (n : Nat) (s : State) (h : s.busy = true) :
    runActs (repeatActs n p) s = f^[n] s := by
  induction n generalizing s with
  | zero => rfl
  | succ n ih =>
    have hb : (f s).busy = true := by rw [hf, h]
    rw [repeatActs, runActs_then _ _ _ _ h (hp s h) hb, ih _ hb, Function.iterate_succ_apply]

/-- A byte shifted out eight times is zero. -/
theorem shiftOut_eight (v : Byte) : v >>> 1 >>> 1 >>> 1 >>> 1 >>> 1 >>> 1 >>> 1 >>> 1 = 0 := by
  revert v; decide

/-- `write_byte(x)` (R92). -/
theorem runActs_writeByte (x : Src) (s : State) (h : s.busy = true) :
    runActs (writeByte x) s =
      { s with oe := false, timer := 0, bit := (x.value s).getLsbD 7, sr := 0, bitcnt := 0,
               picks := s.picks + x.drawn s, log := (writeByteTrace (x.value s)).reverse ++ s.log } := by
  have hb : (act (.loadByte x) s).busy = true := h
  rw [writeByte, runActs, if_pos hb, runActs_repeat _ writeTurn writeTurn_busy runActs_writeTurn 8 _ hb]
  simp only [act, loadShift]
  generalize x.value s = v
  generalize s.picks + x.drawn s = d
  simp only [Function.iterate_succ, Function.iterate_zero, Function.comp, id, writeTurn, shiftOut_eight]
  simp [writeByteTrace, byteBits, ← BitVec.shiftRight_add]

/-- One turn of `read_byte` (R93). -/
theorem runActs_readTurn (s : State) (h : s.busy = true) : runActs (readSlot ++ [.shiftIn]) s = readTurn s := by
  have hp : s.phase ≠ .idle := (busy_iff s).1 h
  rw [runActs_then _ _ _ _ h (runActs_readSlot s h) (by simpa [State.busy, consume] using hp)]
  simp [runActs, act, shiftIn, State.busy, hp, readTurn, consume]

/-- Several turns of `read_byte`, by the bits that come (R93). -/
theorem readTurn_iterate (b : Bool) (bits : List Bool) (s : State) (h : s.upcoming (bits.length + 1) = bits ++ [b]) :
    readTurn^[bits.length + 1] s =
      { consume (bits.length + 1) s with
        oe := false, timer := 0, bit := b, sr := (bits ++ [b]).foldl shiftInBit s.sr
        bitcnt := s.bitcnt - (bits.length + 1)
        log := ((bits ++ [b]).flatMap readSlotTrace).reverse ++ s.log } := by
  induction bits generalizing s with
  | nil =>
    rw [upcoming_succ] at h
    obtain ⟨h1, -⟩ := List.cons.inj h
    simp [readTurn, h1]
  | cons a bits ih =>
    rw [List.length_cons, upcoming_succ] at h
    obtain ⟨h1, h2⟩ := List.cons.inj h
    have h3 : (readTurn s).upcoming (bits.length + 1) = bits ++ [b] := h2
    rw [List.length_cons, Function.iterate_succ_apply, ih _ h3]
    simp [readTurn, h1, consume]
    omega

/-- Eight bits shifted in from bit 7 are the byte whose bits they are (R93). -/
theorem shiftIn_byteBits (x : Byte) : (byteBits x).foldl shiftInBit 0x00 = x := by
  revert x; decide

/-- `read_byte()` when the environment answers with the bits of `x` (R93). -/
theorem runActs_readByte (x : Byte) (s : State) (h : s.busy = true) (hs : s.upcoming 8 = byteBits x) :
    runActs readByte s =
      { consume 8 s with oe := false, timer := 0, bit := x.getLsbD 7, sr := x, bitcnt := 0
                         log := (readByteTrace x).reverse ++ s.log } := by
  have hb : (act .clearByte s).busy = true := h
  rw [readByte, runActs, if_pos hb, runActs_repeat _ readTurn readTurn_busy runActs_readTurn 8 _ hb]
  have := readTurn_iterate (x.getLsbD 7)
    [x.getLsbD 0, x.getLsbD 1, x.getLsbD 2, x.getLsbD 3, x.getLsbD 4, x.getLsbD 5, x.getLsbD 6]
    (act .clearByte s) hs
  have hx := shiftIn_byteBits x
  simp only [byteBits, List.foldl_cons, List.foldl_nil] at hx
  refine this.trans ?_
  simp [act, loadShift, consume, readByteTrace, byteBits]
  simpa using hx

end Sys2Proof.Machine
end

