-- ==== Sys2Proof/Laws/Session.lean ====
section
/-!
SUPPORT. Laws of the session: what a single byte, a transfer, `reset()` and `select()` do, each said once.
-/

namespace Sys2Proof.Machine

/-- A byte operand is read from the latches, the buffer and the free bytes only. -/
theorem value_congr (x : Src) (s t : State) (ha : t.aL = s.aL) (hb : t.bL = s.bL) (hc : t.buf = s.buf)
    (hp : t.picks = s.picks) : x.value t = x.value s := by
  cases x <;> simp [Src.value, ha, hb, hc, hp]

@[simp] theorem heldImage_get (img : Vector Byte 9) (i : Nat) (h : i < 9) : (heldImage img)[i] = .held img[i] := by
  simp [heldImage]

/-- A read of `BUF` gives the bytes it holds. -/
theorem image_of_held {s : State} {img : Vector Byte 9} (h : s.buf = heldImage img) : s.image = img := by
  ext i hi
  simp [State.image, h, Content.read]

/-- The state after a single byte sent (R18, R92). -/
def sentByte (x : Byte) (s : State) : State :=
  { s with oe := false, timer := 0, bit := x.getLsbD 7, sr := 0, bitcnt := 0, bytecnt := 0
           log := (writeByteTrace x).reverse ++ s.log }

/-- A single byte sent (R18, R92). -/
theorem runActs_sendByte (x : Src) (s : State) (h : s.busy = true) (hx : ∀ t, x.drawn t = 0) :
    runActs (sendByte x) s = sentByte (x.value s) s := by
  have hp : s.phase ≠ .idle := (busy_iff s).1 h
  have hb : (act (.transfer 1) s).busy = true := h
  rw [sendByte, runActs, if_pos hb, runActs_then _ _ _ _ hb (runActs_writeByte x _ hb) hb]
  simp [runActs, act, startTransfer, countByte, State.busy, value_congr x s { s with bytecnt := 1 } rfl rfl rfl rfl, hx, sentByte]

/-- A single byte read (R18, R93). -/
theorem runActs_receiveByte (x : Byte) (s : State) (h : s.busy = true) (hs : s.upcoming 8 = byteBits x) :
    runActs receiveByte s =
      { consume 8 s with oe := false, timer := 0, bit := x.getLsbD 7, sr := x, bitcnt := 0, bytecnt := 0
                         log := (readByteTrace x).reverse ++ s.log } := by
  have hb : (act (.transfer 1) s).busy = true := h
  rw [receiveByte, runActs, if_pos hb, runActs_then _ _ _ _ hb (runActs_readByte x _ hb hs) hb]
  simp [runActs, act, startTransfer, countByte, State.busy, consume]

/-- One byte of the ROM code read into its place (R102). -/
def romTurn (s : State) (p : Fin 8 × Byte) : State :=
  { consume 8 s with oe := false, timer := 0, bit := p.2.getLsbD 7, sr := p.2, bitcnt := 0, bytecnt := s.bytecnt - 1
                     rom := s.rom.set p.1 p.2, log := (readByteTrace p.2).reverse ++ s.log }

/-- One byte of the scratchpad read into its place (R121). -/
def imageTurn (s : State) (p : Fin 9 × Byte) : State :=
  { consume 8 s with oe := false, timer := 0, bit := p.2.getLsbD 7, sr := p.2, bitcnt := 0, bytecnt := s.bytecnt - 1
                     buf := s.buf.set p.1 (.held p.2), log := (readByteTrace p.2).reverse ++ s.log }

theorem byteBits_length (x : Byte) : (byteBits x).length = 8 := rfl

theorem bytesBits_length (xs : List Byte) : (bytesBits xs).length = 8 * xs.length := by
  induction xs with
  | nil => rfl
  | cons x xs ih =>
    rw [bytesBits, List.flatMap_cons, List.length_append, byteBits_length, List.length_cons]
    rw [bytesBits] at ih
    omega

/-- Bytes read into their places one after the other, when one of them is read as `turn` says. -/
theorem runActs_readInto {n : Nat} (store : Fin n → Act) (turn : State → Fin n × Byte → State)
    (hb : ∀ s p, (turn s p).busy = s.busy) (hd : ∀ s p k, (turn s p).upcoming k = (consume 8 s).upcoming k)
    (ht : ∀ s p, s.busy = true → s.upcoming 8 = byteBits p.2 →
      runActs (readByte ++ [store p.1, .byteDone]) s = turn s p)
    (ps : List (Fin n × Byte)) (s : State) (h : s.busy = true)
    (hs : s.upcoming (8 * ps.length) = bytesBits (ps.map (·.2))) :
    runActs (readInto (ps.map (fun p => store p.1))) s = ps.foldl turn s := by
  induction ps generalizing s with
  | nil => rfl
  | cons p ps ih =>
    have hb' : (turn s p).busy = true := by rw [hb, h]
    obtain ⟨h1, h2⟩ := upcoming_split (m := 8) (n := 8 * ps.length) (xs := byteBits p.2)
      (ys := bytesBits (ps.map (·.2))) (by rw [← show 8 * (p :: ps).length = 8 + 8 * ps.length by simp; omega, hs]; rfl)
      (byteBits_length p.2)
    have : readInto ((p :: ps).map (fun p => store p.1)) =
        (readByte ++ [store p.1, .byteDone]) ++ readInto (ps.map (fun p => store p.1)) := by
      simp [readInto]
    rw [this, runActs_then _ _ _ _ h (ht s p h h1) hb', ih _ hb' (by rw [hd, h2]), List.foldl_cons]

theorem runActs_romTurn (s : State) (p : Fin 8 × Byte) (h : s.busy = true) (hs : s.upcoming 8 = byteBits p.2) :
    runActs (readByte ++ [.storeRom p.1, .byteDone]) s = romTurn s p := by
  have hp : s.phase ≠ .idle := (busy_iff s).1 h
  rw [runActs_then _ _ _ _ h (runActs_readByte p.2 s h hs) h]
  simp [runActs, act, countByte, State.busy, hp, romTurn, consume]

theorem runActs_imageTurn (s : State) (p : Fin 9 × Byte) (h : s.busy = true) (hs : s.upcoming 8 = byteBits p.2) :
    runActs (readByte ++ [.storeBuf p.1, .byteDone]) s = imageTurn s p := by
  have hp : s.phase ≠ .idle := (busy_iff s).1 h
  rw [runActs_then _ _ _ _ h (runActs_readByte p.2 s h hs) h]
  simp [runActs, act, countByte, State.busy, hp, imageTurn, consume]

/-- Draws counted in two parts: what the first part leaves of a list of length `k` is `k - m`. -/
theorem drawn_add (d k m n : Nat) : d + (m - k) + (n - (k - m)) = d + (m + n - k) := by omega

theorem set_all_eight (v r : Vector Byte 8) :
    (((((((v.set 0 r[0]).set 1 r[1]).set 2 r[2]).set 3 r[3]).set 4 r[4]).set 5 r[5]).set 6 r[6]).set 7 r[7] = r := by
  ext i hi
  simp only [Vector.getElem_set]
  interval_cases i <;> rfl

theorem set_all_nine (v r : Vector Content 9) :
    ((((((((v.set 0 r[0]).set 1 r[1]).set 2 r[2]).set 3 r[3]).set 4 r[4]).set 5 r[5]).set 6 r[6]).set 7 r[7]).set 8 r[8]
      = r := by
  apply Vector.ext
  intro i hi
  simp only [Vector.getElem_set]
  interval_cases i <;> rfl

theorem toList_eight (r : Vector Byte 8) : r.toList = [r[0], r[1], r[2], r[3], r[4], r[5], r[6], r[7]] := by
  apply List.ext_getElem <;> simp
  intro i hi
  interval_cases i <;> rfl

theorem toList_nine (r : Vector Byte 9) : r.toList = [r[0], r[1], r[2], r[3], r[4], r[5], r[6], r[7], r[8]] := by
  apply List.ext_getElem <;> simp
  intro i hi
  interval_cases i <;> rfl

/-- The ROM code read (R102). -/
theorem runActs_readRomCode (r : Vector Byte 8) (s : State) (h : s.busy = true)
    (hs : s.upcoming 64 = bytesBits r.toList) :
    runActs readRomCode s =
      { consume 64 s with oe := false, timer := 0, bit := r[7].getLsbD 7, sr := r[7], bitcnt := 0, bytecnt := 0
                          rom := r, log := (r.toList.flatMap readByteTrace).reverse ++ s.log } := by
  have hb : (act (.transfer 8) s).busy = true := h
  rw [readRomCode, runActs, if_pos hb]
  rw [toList_eight] at hs ⊢
  refine (runActs_readInto .storeRom romTurn (fun _ _ => rfl) (fun _ _ _ => rfl) runActs_romTurn
    [(0, r[0]), (1, r[1]), (2, r[2]), (3, r[3]), (4, r[4]), (5, r[5]), (6, r[6]), (7, r[7])] _ hb hs).trans ?_
  simp [romTurn, act, startTransfer, consume]
  exact ⟨by simpa using set_all_eight s.rom r, by simp only [drawn_add]⟩

/-- The scratchpad image read. -/
theorem runActs_nineBytes (r : Vector Byte 9) (s : State) (h : s.busy = true)
    (hs : s.upcoming 72 = bytesBits r.toList) :
    runActs (.transfer 9 :: readInto [.storeBuf 0, .storeBuf 1, .storeBuf 2, .storeBuf 3, .storeBuf 4, .storeBuf 5,
      .storeBuf 6, .storeBuf 7, .storeBuf 8]) s =
      { consume 72 s with oe := false, timer := 0, bit := r[8].getLsbD 7, sr := r[8], bitcnt := 0, bytecnt := 0
                          buf := heldImage r, log := (r.toList.flatMap readByteTrace).reverse ++ s.log } := by
  have hb : (act (.transfer 9) s).busy = true := h
  rw [runActs, if_pos hb]
  rw [toList_nine] at hs ⊢
  refine (runActs_readInto .storeBuf imageTurn (fun _ _ => rfl) (fun _ _ _ => rfl) runActs_imageTurn
    [(0, r[0]), (1, r[1]), (2, r[2]), (3, r[3]), (4, r[4]), (5, r[5]), (6, r[6]), (7, r[7]), (8, r[8])] _ hb hs).trans ?_
  simp [imageTurn, act, startTransfer, consume]
  exact ⟨by simpa using set_all_nine s.buf (heldImage r), by simp only [drawn_add]⟩

/-- The state after `reset()` (R100). -/
def afterBusReset (s : State) : State :=
  { consume 1 s with phase := .resetPresence, oe := false, timer := 0, bit := answer s
                     log := (resetTrace (answer s)).reverse ++ s.log }

/-- `reset()`, whatever answers (R100). -/
theorem runActs_busReset (s : State) : runActs busReset s = afterBusReset s := by
  simp [afterBusReset, busReset, runActs, act, driveLow, release, waitFor, sampleLine, afterSample_released, lineLevel, State.busy,
    resetTrace, answer, consume, pushWait_low tRstl_pos, pushWait_rel tPds_pos, pushWait_waitTrace]

/-- A failure on a released line (R142). -/
theorem fail_released (c : Cause) (s : State) (h : s.oe = false) :
    fail c s = { scrapResults { s with phase := .idle, ok := false } with cause := some c } := by
  simp [fail, releaseIfLow, h, flagsFailed]

theorem fail_busy (c : Cause) (s : State) : (fail c s).busy = false := by simp [fail, State.busy]

/-- The state of a selection in which no device answers, when it fails (R102). -/
def withoutPresence (s : State) : State :=
  { consume 1 s with phase := .resetPresence, oe := false, timer := 0, bit := true
                     log := (resetTrace true).reverse ++ s.log }

/-- The state of a selection that has read the ROM code `r` and checks it (R102). -/
def withRom (r : Vector Byte 8) (s : State) : State :=
  { consume 65 s with phase := .romReadValidate, oe := false, timer := 0, bit := r[7].getLsbD 7, sr := r[7], bitcnt := 0
                      bytecnt := 0, rom := r, crcAcc := residue r.toList, log := (romTrace r).reverse ++ s.log }

/-- The state after a selection that has sent its command (R102). -/
def selected (r : Vector Byte 8) (cmd : Byte) (s : State) : State :=
  { consume 65 s with phase := .commandIssue, oe := false, timer := 0, bit := cmd.getLsbD 7, sr := 0, bitcnt := 0
                      bytecnt := 0, rom := r, crcAcc := 0, log := (selectTrace r cmd).reverse ++ s.log }

@[simp] theorem selected_upcoming (r : Vector Byte 8) (cmd : Byte) (s : State) (n : Nat) :
    (selected r cmd s).upcoming n = (consume 65 s).upcoming n := rfl

/-- A selection without a presence pulse fails after the reset pulse (R101, R102, R144). -/
theorem runActs_select_noPresence (cmd fam : Src) (any : Bool) (s : State) (h : s.busy = true)
    (hs : s.upcoming 1 = [true]) :
    runActs (select cmd fam any) s = fail .noPresence (withoutPresence s) := by
  have ha : answer s = true := by rw [upcoming_succ] at hs; exact (List.cons.inj hs).1
  simp only [select, List.append_assoc]
  rw [runActs_then _ _ _ _ h (runActs_busReset s) rfl]
  simp [runActs, act, checkPresence, failUnless, fail_busy, withoutPresence, afterBusReset, ha]

/-- A selection up to the ROM validation. -/
theorem runActs_select_rom (cmd fam : Src) (any : Bool) (r : Vector Byte 8) (s : State)
    (h : s.busy = true) (hs : s.upcoming 65 = selectAnswers r) :
    runActs (select cmd fam any) s =
      runActs ((if any then [] else [.checkFamily fam]) ++ ([.enter .commandIssue] ++ sendByte cmd))
        (withRom r s) ∧ residue r.toList = 0 ∨
    runActs (select cmd fam any) s = fail .romCrc (withRom r s) ∧ residue r.toList ≠ 0 := by
  rw [upcoming_succ] at hs
  obtain ⟨ha, hr64⟩ := List.cons.inj hs
  have hp : checkPresence (afterBusReset s) = afterBusReset s := by
    simp [checkPresence, failUnless, show (afterBusReset s).bit = false from ha]
  have hb1 : (act .checkPresence (afterBusReset s)).busy = true := by rw [act, hp]; rfl
  have hb2 : (act (.enter .romReadValidate) (act .checkPresence (afterBusReset s))).busy = true := rfl
  simp only [select, List.append_assoc]
  rw [runActs_then _ _ _ _ h (runActs_busReset s) rfl, List.cons_append, runActs, if_pos hb1, List.cons_append, runActs,
    if_pos hb2, List.nil_append, runActs_then _ _ _ _ hb2 (runActs_sendByte _ _ hb2 (fun _ => rfl)) hb2]
  generalize hs2 : sentByte (Src.value (.lit (encode .readRom)) (act (.enter .romReadValidate)
    (act .checkPresence (afterBusReset s)))) (act (.enter .romReadValidate) (act .checkPresence (afterBusReset s))) = s2
  rw [act, act, hp] at hs2
  have hb3 : s2.busy = true := by subst hs2; rfl
  have hr2 : s2.upcoming 64 = bytesBits r.toList := by subst hs2; exact hr64
  rw [runActs_then _ _ _ _ hb3 (runActs_readRomCode r s2 hb3 hr2) hb3]
  have hd : ∀ k : Nat, s.draws + (1 - k) + (64 - (k - 1)) = s.draws + (65 - k) := by omega
  have hw : { withRom r s with crcAcc := s.crcAcc } =
      { consume 64 s2 with oe := false, timer := 0, bit := r[7].getLsbD 7, sr := r[7], bitcnt := 0, bytecnt := 0
                           rom := r, log := (r.toList.flatMap readByteTrace).reverse ++ s2.log } := by
    subst hs2
    simp [withRom, romTrace, encode, Src.value, consume, sentByte, afterBusReset, ha, hd]
  rw [← hw, List.singleton_append, runActs]
  by_cases hr : residue r.toList = 0
  · left
    have hc : act .checkRom { withRom r s with crcAcc := s.crcAcc } = withRom r s := by
      simp [act, checkRom, withRom, hr, failUnless]
    rw [hc, if_pos (show (withRom r s).busy = true from rfl)]
    exact ⟨rfl, hr⟩
  · right
    have hc : act .checkRom { withRom r s with crcAcc := s.crcAcc } = fail .romCrc (withRom r s) := by
      simp [act, checkRom, withRom, show ¬ residue r.toList = 0#8 from hr, failUnless]
    rw [hc, if_neg (by simp [fail_busy])]
    exact ⟨rfl, hr⟩

/-- A selection whose ROM code has a bad CRC fails after the ROM bytes (R102, R144). -/
theorem runActs_select_romCrc (cmd fam : Src) (any : Bool) (r : Vector Byte 8) (s : State)
    (h : s.busy = true) (hs : s.upcoming 65 = selectAnswers r) (hr : ¬ RomOk r) :
    runActs (select cmd fam any) s = fail .romCrc (withRom r s) := by
  obtain ⟨_, h0⟩ | ⟨he, _⟩ := runActs_select_rom cmd fam any r s h hs
  · exact absurd h0 hr
  · exact he

/-- A selection with a good ROM code of another family fails after the ROM bytes (R102, R144). -/
theorem runActs_select_family (cmd fam : Src) (r : Vector Byte 8) (s : State)
    (h : s.busy = true) (hs : s.upcoming 65 = selectAnswers r) (hr : RomOk r) (hf : r[0] ≠ fam.value s) :
    runActs (select cmd fam false) s = fail .familyMismatch (withRom r s) := by
  obtain ⟨he, _⟩ | ⟨_, h0⟩ := runActs_select_rom cmd fam false r s h hs
  · rw [he]
    have hv : fam.value (withRom r s) = fam.value s := value_congr fam s _ rfl rfl rfl rfl
    have hf' : (withRom r s).rom[0] ≠ fam.value s := hf
    simp [runActs, act, checkFamily, failUnless, hv, hf', fail_busy]
  · exact absurd hr h0

/-- A selection that succeeds (R102). -/
theorem runActs_select_ok (cmd fam : Src) (any : Bool) (r : Vector Byte 8) (s : State)
    (h : s.busy = true) (hs : s.upcoming 65 = selectAnswers r) (hr : RomOk r)
    (hc0 : ∀ t, cmd.drawn t = 0) (hf : any = true ∨ r[0] = fam.value s) :
    runActs (select cmd fam any) s = selected r (cmd.value s) s := by
  obtain ⟨he, _⟩ | ⟨_, h0⟩ := runActs_select_rom cmd fam any r s h hs
  · have hv : fam.value (withRom r s) = fam.value s := value_congr fam s _ rfl rfl rfl rfl
    have hw : (withRom r s).busy = true := rfl
    have hstart : runActs (if any then [] else [.checkFamily fam]) (withRom r s) = withRom r s := by
      cases any with
      | true => rfl
      | false =>
        have hf' : (withRom r s).rom[0] = fam.value s := hf.resolve_left (by simp)
        simp [runActs, act, checkFamily, failUnless, hv, hf']
    rw [he, runActs_then _ _ _ _ hw hstart hw]
    have hb : (act (.enter .commandIssue) (withRom r s)).busy = true := rfl
    rw [List.singleton_append, runActs, if_pos hb, runActs_sendByte _ _ hb hc0]
    have hc : cmd.value (act (.enter .commandIssue) (withRom r s)) = cmd.value s :=
      value_congr cmd s _ rfl rfl rfl rfl
    simp only [hc]
    simp [act, sentByte, withRom, selected, selectTrace, show residue r.toList = 0 from hr]
  · exact absurd hr h0

end Sys2Proof.Machine
end

