-- ==== Sys2Proof/Laws/Ds18b20.lean ====
section
/-!
SUPPORT. Laws of the DS18B20 sequencer: what `read_scratchpad()`, `write_scratchpad()` and `wait_conversion()` do, each said
once.
-/

namespace Sys2Proof.Machine

/-- A selection of U3 that succeeds (R120). -/
theorem runActs_selectDs_ok (cmd : Instr) (r : Vector Byte 8) (s : State) (h : s.busy = true)
    (hs : s.upcoming 65 = selectAnswers r) (hr : DsRomOk r) :
    runActs (selectDs cmd) s = selected r (encode cmd) s :=
  runActs_select_ok _ _ _ r s h hs hr.1 (fun _ => rfl) (.inr hr.2)

/-- A selection of U3 that fails, whatever is to follow it: the failure is taken on a released line, with the session's trace
in place and nothing but the registers of the session changed (R120, R144). -/
theorem runActs_selectDs_fails (cmd : Instr) (q : List Act) (s : State) (bits : List Bool) (tr : List LineAction)
    (c : Cause) (h : s.busy = true) (hf : SessionFails bits tr c) (hs : s.upcoming bits.length = bits) :
    ∃ w, runActs (selectDs cmd ++ q) s = fail c w ∧ w.oe = false ∧ w.log = tr.reverse ++ s.log ∧ w.opL = s.opL ∧
      w.aL = s.aL ∧ w.bL = s.bL ∧ HostSideKept s w ∧ ResultsKept s w ∧ w.buf = s.buf ∧ w.picks = s.picks ∧
      Answered bits.length s w := by
  rcases hf with ⟨rfl, rfl, rfl⟩ | ⟨rom, hr, rfl, rfl, rfl⟩
  · refine ⟨withoutPresence s, ?_, rfl, rfl, rfl, rfl, rfl, ⟨rfl, rfl, rfl, rfl⟩, ⟨rfl, rfl⟩, rfl, rfl, rfl, rfl⟩
    exact runActs_ends _ _ _ _ h (runActs_select_noPresence _ _ _ s h hs) (fail_busy _ _)
  · have hl : (selectAnswers rom).length = 65 := by simp [selectAnswers, bytesBits_length]
    rw [hl] at hs ⊢
    refine ⟨withRom rom s, ?_, rfl, rfl, rfl, rfl, rfl, ⟨rfl, rfl, rfl, rfl⟩, ⟨rfl, rfl⟩, rfl, rfl, rfl, rfl⟩
    by_cases h0 : residue rom.toList = 0x00
    · rw [if_pos h0]
      exact runActs_ends _ _ _ _ h (runActs_select_family _ _ rom s h hs h0 (fun hf => hr ⟨h0, hf⟩)) (fail_busy _ _)
    · rw [if_neg h0]
      exact runActs_ends _ _ _ _ h (runActs_select_romCrc _ _ _ rom s h hs h0) (fail_busy _ _)

/-- The state after a scratchpad read, at its validation (R121). -/
def withImage (r : Vector Byte 8) (img : Vector Byte 9) (s : State) : State :=
  { consume 137 s with phase := .dataTransfer, oe := false, timer := 0, bit := img[8].getLsbD 7, sr := img[8]
                       bitcnt := 0, bytecnt := 0, rom := r, buf := heldImage img
                       crcAcc := if Config.spadCrcEn then residue img.toList else 0
                       log := (readScratchpadTrace r img).reverse ++ s.log }

@[simp] theorem withImage_upcoming (r : Vector Byte 8) (img : Vector Byte 9) (s : State) (n : Nat) :
    (withImage r img s).upcoming n = (consume 137 s).upcoming n := rfl

/-- A scratchpad read up to its validation. -/
theorem runActs_readScratchpad (r : Vector Byte 8) (img : Vector Byte 9) (s : State)
    (h : s.busy = true) (hs : s.upcoming 137 = selectAnswers r ++ bytesBits img.toList) (hr : DsRomOk r) :
    runActs readScratchpad s = checkScratchpad Config.spadCrcEn { withImage r img s with crcAcc := 0 } := by
  obtain ⟨h1, h2⟩ := upcoming_split (m := 65) (n := 72) hs (by simp [selectAnswers, bytesBits_length])
  have hb : (selected r (encode .readScratchpadCmd) s).busy = true := rfl
  simp only [readScratchpad, List.append_assoc]
  rw [runActs_then _ _ _ _ h (runActs_selectDs_ok _ r s h h1 hr) hb]
  have hb' : (act (.enter .dataTransfer) (selected r (encode .readScratchpadCmd) s)).busy = true := rfl
  rw [List.singleton_append, runActs, if_pos hb', readImage]
  rw [runActs_then _ _ _ _ hb' (runActs_nineBytes img _ hb' h2) rfl]
  have hd : ∀ k : Nat, s.draws + (65 - k) + (72 - (k - 65)) = s.draws + (137 - k) := by omega
  simp [runActs, act, selected, withImage, readScratchpadTrace, encode, consume, hd]

/-- A scratchpad read that succeeds (R121). -/
theorem runActs_readScratchpad_ok (r : Vector Byte 8) (img : Vector Byte 9) (s : State)
    (h : s.busy = true) (hs : s.upcoming 137 = selectAnswers r ++ bytesBits img.toList) (hr : DsRomOk r)
    (hi : ImageOk img) : runActs readScratchpad s = withImage r img s := by
  rw [runActs_readScratchpad r img s h hs hr]
  have hz : ({ withImage r img s with crcAcc := 0 } : State).image = img := image_of_held rfl
  cases he : Config.spadCrcEn with
  | false => simp [checkScratchpad, withImage, he]
  | true => simp only [checkScratchpad, hz, if_true]; simp [withImage, he, failUnless, hi he]

/-- A scratchpad read whose validation fails (R121, R144). -/
theorem runActs_readScratchpad_crc (r : Vector Byte 8) (img : Vector Byte 9) (s : State)
    (h : s.busy = true) (hs : s.upcoming 137 = selectAnswers r ++ bytesBits img.toList) (hr : DsRomOk r)
    (hi : ¬ ImageOk img) : runActs readScratchpad s = fail .scratchpadCrc (withImage r img s) := by
  rw [runActs_readScratchpad r img s h hs hr]
  obtain ⟨he, hc⟩ : Config.spadCrcEn = true ∧ residue img.toList ≠ 0x00 := by
    simpa [ImageOk] using hi
  have hz : ({ withImage r img s with crcAcc := 0 } : State).image = img := image_of_held rfl
  simp only [checkScratchpad, he, hz, if_true]
  simp [withImage, he, failUnless, show ¬ residue img.toList = 0#8 from hc]

/-- `BUF[2]`, `BUF[3]`, `BUF[4]` as a scratchpad write reads them, one after the other (R122). -/
def highNow (s : State) : Byte := s.buf[2].read s.picks
def lowNow (s : State) : Byte := s.buf[3].read (s.picks + s.buf[2].drawn)
def configNow (s : State) : Byte := s.buf[4].read (s.picks + s.buf[2].drawn + s.buf[3].drawn)

/-- The state after a scratchpad write (R122). -/
def withWritten (r : Vector Byte 8) (s : State) : State :=
  { consume 65 s with phase := .dataTransfer, oe := false, timer := 0, bit := (configNow s).getLsbD 7, sr := 0
                      bitcnt := 0, bytecnt := 0, rom := r, crcAcc := 0
                      picks := s.picks + s.buf[2].drawn + s.buf[3].drawn + s.buf[4].drawn
                      log := (writeScratchpadTrace r (highNow s) (lowNow s) (configNow s)).reverse ++ s.log }

/-- Bytes that `BUF` holds are the ones sent. -/
theorem written_of_held {s : State} {img : Vector Byte 9} (h : s.buf = heldImage img) :
    highNow s = img[2] ∧ lowNow s = img[3] ∧ configNow s = img[4] := by
  simp [highNow, lowNow, configNow, h, Content.read]

@[simp] theorem withWritten_upcoming (r : Vector Byte 8) (s : State) (n : Nat) :
    (withWritten r s).upcoming n = (consume 65 s).upcoming n := rfl

/-- The state after one byte of a write transfer. -/
def byteWritten (x : Src) (s : State) : State :=
  { s with oe := false, timer := 0, bit := (x.value s).getLsbD 7, sr := 0, bitcnt := 0, bytecnt := s.bytecnt - 1
           picks := s.picks + x.drawn s, log := (writeByteTrace (x.value s)).reverse ++ s.log }

theorem byteWritten_busy (x : Src) (s : State) : (byteWritten x s).busy = s.busy := rfl

/-- One byte of a write transfer. -/
theorem runActs_byteWritten (x : Src) (s : State) (h : s.busy = true) :
    runActs (writeByte x ++ [.byteDone]) s = byteWritten x s := by
  rw [runActs_then _ _ _ _ h (runActs_writeByte x s h) h]
  simp [runActs, act, countByte, byteWritten]

/-- A scratchpad write that succeeds (R122). -/
theorem runActs_writeScratchpad_ok (r : Vector Byte 8) (s : State) (h : s.busy = true)
    (hs : s.upcoming 65 = selectAnswers r) (hr : DsRomOk r) :
    runActs writeScratchpad s = withWritten r s := by
  have hb : (selected r (encode .writeScratchpadCmd) s).busy = true := rfl
  simp only [writeScratchpad, List.append_assoc]
  rw [runActs_then _ _ _ _ h (runActs_selectDs_ok _ r s h hs hr) hb]
  simp only [writeImage, List.flatMap_cons, List.flatMap_nil, List.append_nil, List.singleton_append]
  generalize hs1 : selected r (encode .writeScratchpadCmd) s = s1 at hb
  have hd : (act (.enter .dataTransfer) s1).busy = true := rfl
  have ht : (act (.transfer 3) (act (.enter .dataTransfer) s1)).busy = true := rfl
  rw [runActs, if_pos hd, runActs, if_pos ht]
  generalize hs2 : act (.transfer 3) (act (.enter .dataTransfer) s1) = s2 at ht
  have h3 := (byteWritten_busy (.buf 2) s2).trans ht
  have h4 := (byteWritten_busy (.buf 3) (byteWritten (.buf 2) s2)).trans h3
  rw [runActs_then _ _ _ _ ht (runActs_byteWritten _ _ ht) h3, runActs_then _ _ _ _ h3 (runActs_byteWritten _ _ h3) h4,
    runActs_byteWritten _ _ h4]
  subst hs2
  subst hs1
  simp [act, startTransfer, selected, byteWritten, withWritten, writeScratchpadTrace, encode, Src.value,
    Src.drawn, consume, highNow, lowNow, configNow]

/-! The decisions of `SET_RESOLUTION` (R127). -/

@[simp] theorem setConfig_upcoming (s : State) (n : Nat) : (setConfig s).upcoming n = s.upcoming n := rfl

@[simp] theorem setConfig_busy (s : State) : (setConfig s).busy = s.busy := rfl

/-- The fast path (R127). -/
theorem runActs_sameField (p : List Act) (s : State) (h : resolutionField s.image[4] = resolutionOperand s.aL) :
    runActs (.succeedIfSame :: p) s = succeed s := by
  simp [runActs, act, h, succeed, flagsSucceeded, State.busy]

/-- The way past the fast path (R127). -/
theorem runActs_newField (p : List Act) (s : State) (hb : s.busy = true)
    (h : resolutionField s.image[4] ≠ resolutionOperand s.aL) :
    runActs (.succeedIfSame :: .setConfig :: p) s = runActs p (setConfig s) := by
  simp [runActs, act, h, hb]

/-- Without the persist operand the operation ends here (R127). -/
theorem runActs_noPersist (p : List Act) (s : State) (h : persistOperand s.bL = false) :
    runActs (.succeedUnlessPersist :: p) s = succeed s := by
  simp [runActs, act, h, succeed, flagsSucceeded, State.busy]

/-- With the persist operand it goes on (R127). -/
theorem runActs_persist (p : List Act) (s : State) (hb : s.busy = true) (h : persistOperand s.bL = true) :
    runActs (.succeedUnlessPersist :: p) s = runActs p s := by
  simp [runActs, act, h, hb]

/-- The state after a poll that has sampled `zeros` zeros and then `last` (R123). -/
def polled (zeros : Nat) (more : List Bool) (s : State) : State :=
  { s with oe := false, timer := 0, bit := true, script := more
           log := (pollTrace zeros ++ readSlotTrace true).reverse ++ s.log }

/-- The answer, when it is listed. -/
theorem answer_script (s : State) (b : Bool) (more : List Bool) (h : s.script = b :: more) : answer s = b := by
  simp [answer, lineLevel, h]

/-- A poll that ends (R123). -/
theorem pollLoop_ends (zeros : Nat) (more : List Bool) (s : State) (h : s.busy = true)
    (hs : s.script = List.replicate zeros false ++ true :: more) :
    pollLoop s.script s = (polled zeros more s, true) := by
  rw [hs]
  induction zeros generalizing s with
  | zero =>
    simp only [List.replicate_zero, List.nil_append, pollLoop] at hs ⊢
    rw [runActs_readSlot s h, answer_script s true more hs]
    simp [polled, pollTrace, consume, hs]
  | succ n ih =>
    simp only [List.replicate_succ, List.cons_append, pollLoop] at hs ⊢
    rw [runActs_readSlot s h, answer_script s false _ hs]
    simp only [Bool.false_eq_true, if_false]
    refine (ih _ (by exact h) (by simp [consume, hs])).trans ?_
    simp [polled, pollTrace, List.replicate_succ, consume, hs]

/-- The state after a poll whose listed answers were all zeros (R123, R146). -/
def polling (zeros : Nat) (s : State) : State :=
  { s with oe := if zeros = 0 then s.oe else false, timer := if zeros = 0 then s.timer else 0
           bit := if zeros = 0 then s.bit else false, script := []
           log := (pollTrace zeros).reverse ++ s.log }

/-- A poll that goes on (R123, R146). -/
theorem pollLoop_goes_on (zeros : Nat) (s : State) (h : s.busy = true) (hs : s.script = List.replicate zeros false) :
    pollLoop s.script s = (polling zeros s, false) := by
  rw [hs]
  induction zeros generalizing s with
  | zero =>
    cases s
    simp_all [pollLoop, polling, pollTrace]
  | succ n ih =>
    simp only [List.replicate_succ, pollLoop] at hs ⊢
    rw [runActs_readSlot s h, answer_script s false _ hs]
    simp only [Bool.false_eq_true, if_false]
    refine (ih _ (by exact h) (by simp [consume, hs])).trans ?_
    simp [polling, pollTrace, List.replicate_succ, consume, hs]

end Sys2Proof.Machine
end

