-- ==== Sys2Proof/Laws/Machine.lean ====
section
/-!
SUPPORT. Laws of the machine's operations: a failure, one micro-action, one step of the controller, and the issue of an
instruction, each said once.
-/

namespace Sys2Proof.Machine

/-! A failure (R142). -/
@[simp] theorem fail_oe (c : Cause) (s : State) : (fail c s).oe = false := by simp [fail]
@[simp] theorem fail_ok (c : Cause) (s : State) : (fail c s).ok = false := by simp [fail]
@[simp] theorem fail_arg0 (c : Cause) (s : State) : (fail c s).arg0 = s.arg0 := by simp [fail]
@[simp] theorem fail_arg1 (c : Cause) (s : State) : (fail c s).arg1 = s.arg1 := by simp [fail]
@[simp] theorem fail_phase (c : Cause) (s : State) : (fail c s).phase = .idle := by simp [fail]
@[simp] theorem fail_opL (c : Cause) (s : State) : (fail c s).opL = s.opL := by simp [fail]
@[simp] theorem fail_aL (c : Cause) (s : State) : (fail c s).aL = s.aL := by simp [fail]
@[simp] theorem fail_bL (c : Cause) (s : State) : (fail c s).bL = s.bL := by simp [fail]
@[simp] theorem fail_sr (c : Cause) (s : State) : (fail c s).sr = s.sr := by simp [fail]
@[simp] theorem fail_bitcnt (c : Cause) (s : State) : (fail c s).bitcnt = s.bitcnt := by simp [fail]
@[simp] theorem fail_bytecnt (c : Cause) (s : State) : (fail c s).bytecnt = s.bytecnt := by simp [fail]
@[simp] theorem fail_timer (c : Cause) (s : State) : (fail c s).timer = s.timer := by simp [fail]
@[simp] theorem fail_rom (c : Cause) (s : State) : (fail c s).rom = s.rom := by simp [fail]
@[simp] theorem fail_crcAcc (c : Cause) (s : State) : (fail c s).crcAcc = s.crcAcc := by simp [fail]
@[simp] theorem fail_hRdata (c : Cause) (s : State) : (fail c s).hRdata = s.hRdata := by simp [fail]
@[simp] theorem fail_bit (c : Cause) (s : State) : (fail c s).bit = s.bit := by simp [fail]
@[simp] theorem fail_todo (c : Cause) (s : State) : (fail c s).todo = s.todo := by simp [fail]
@[simp] theorem fail_cause (c : Cause) (s : State) : (fail c s).cause = some c := by simp [fail]
@[simp] theorem fail_script (c : Cause) (s : State) : (fail c s).script = s.script := by simp [fail]
@[simp] theorem fail_draws (c : Cause) (s : State) : (fail c s).draws = s.draws := by simp [fail]
@[simp] theorem fail_picks (c : Cause) (s : State) : (fail c s).picks = s.picks := by simp [fail]
@[simp] theorem fail_inputs (c : Cause) (s : State) : (fail c s).inputs = s.inputs := by simp [fail]
@[simp] theorem fail_log (c : Cause) (s : State) : (fail c s).log = (releaseIfLow s).log := by simp [fail]

/-- An operation that failed is over (R142). -/
theorem endedWith_fail (c : Cause) (s : State) : EndedWith false { fail c s with todo := [] } :=
  ⟨fail_phase c s, rfl, fail_oe c s, fail_ok c s⟩

/-- The result registers after a failure (R64, R142). -/
theorem fail_results (c : Cause) (s : State) :
    (fail c s).res0 = (scrapResults s).res0 ∧ (fail c s).res1 = (scrapResults s).res1 ∧
    (fail c s).buf = (scrapResults s).buf := by
  unfold fail scrapResults releaseIfLow
  by_cases ho : s.oe <;> by_cases h1 : s.opL = encode .readTemperature <;>
    by_cases h2 : s.opL = encode .readScratchpad ∨ s.opL = encode .setResolution <;>
    simp [ho, h1, h2, flagsFailed, release, scrapRes, scrapBuf]

/-- An operation that fails with the registers it does not write as they were leaves what R142 says. -/
theorem failedResults_of (i : Instr) (c : Cause) (s w : State) (ho : w.opL = encode i)
    (h1 : i = .readTemperature ∨ ResultsKept s w)
    (h2 : i ∈ [Instr.readScratchpad, .readTemperature, .setResolution] ∨ w.buf = s.buf) :
    FailedResults i s { fail c w with todo := [] } := by
  obtain ⟨e0, e1, e2⟩ := fail_results c w
  unfold FailedResults ResultsKept
  rw [e0, e1, e2, scrapResults, ho]
  unfold ResultsKept at h1
  cases i <;> simp [encode, scrapRes, scrapBuf] at * <;> simp_all

/-- The state with other things still to do, another byte in the read port and other host events pending: what no
micro-action looks at. -/
def aside (m : List Micro) (b : Byte) (es : List HostEvent) (s : State) : State :=
  { s with todo := m, hRdata := b, inputs := es }

@[simp] theorem aside_busy (m : List Micro) (b : Byte) (es : List HostEvent) (s : State) :
    (aside m b es s).busy = s.busy := rfl

@[simp] theorem aside_todo (m : List Micro) (b : Byte) (es : List HostEvent) (s : State) :
    (aside m b es s).todo = m := rfl

theorem aside_self (s : State) : aside s.todo s.hRdata s.inputs s = s := rfl

/-- A failure does not look at them. -/
theorem fail_aside (c : Cause) (m : List Micro) (b : Byte) (es : List HostEvent) (s : State) :
    fail c (aside m b es s) = aside m b es (fail c s) := by
  unfold fail scrapResults releaseIfLow aside
  by_cases h : s.oe <;> by_cases h1 : s.opL = encode .readTemperature <;>
    by_cases h2 : s.opL = encode .readScratchpad ∨ s.opL = encode .setResolution <;>
    simp [h, h1, h2, flagsFailed, release, scrapRes, scrapBuf]

/-- Nor does a check. -/
theorem failUnless_aside (ok : Bool) (c : Cause) (m : List Micro) (b : Byte) (es : List HostEvent) (s : State) :
    failUnless ok c (aside m b es s) = aside m b es (failUnless ok c s) := by
  cases ok <;> simp [failUnless, fail_aside]

/-! One micro-action. -/

/-- No micro-action looks at what is still to do or at the host's side, or changes it. -/
theorem act_aside (a : Act) (m : List Micro) (b : Byte) (es : List HostEvent) (s : State) :
    act a (aside m b es s) = aside m b es (act a s) := by
  cases a
  case sample => cases h : s.oe <;> cases hs : s.script <;> simp [act, aside, sampleLine, afterSample, lineLevel, h, hs]
  case loadByte x => cases x <;> rfl
  case checkFamily x =>
    have : Src.value x (aside m b es s) = x.value s := value_congr _ _ _ rfl rfl rfl rfl
    simp only [act, checkFamily, this]
    exact failUnless_aside _ _ m b es s
  case checkPresence => exact failUnless_aside _ _ m b es s
  case checkRom => exact failUnless_aside _ _ m b es { s with crcAcc := residue s.rom.toList }
  case checkScratchpad =>
    simp only [act, checkScratchpad]
    cases Config.spadCrcEn
    · rfl
    · exact failUnless_aside _ _ m b es { s with crcAcc := residue s.image.toList }
  case succeedIfSame =>
    simp only [act, show (aside m b es s).image = s.image from rfl, show (aside m b es s).aL = s.aL from rfl]
    split <;> rfl
  case succeedUnlessPersist =>
    simp only [act, show (aside m b es s).bL = s.bL from rfl]
    split <;> rfl
  all_goals rfl

/-- So no micro-action changes it. -/
theorem act_keeps_host (a : Act) (s : State) : (act a s).inputs = s.inputs ∧ (act a s).hRdata = s.hRdata := by
  have h : act a s = aside s.todo s.hRdata s.inputs (act a s) := act_aside a s.todo s.hRdata s.inputs s
  have h1 := congrArg State.inputs h
  have h2 := congrArg State.hRdata h
  exact ⟨h1, h2⟩

/-- Nor does it look at what is still to do. -/
theorem act_with_todo (a : Act) (s : State) (m : List Micro) :
    act a { s with todo := m } = { act a s with todo := m } := by
  have h := act_aside a m s.hRdata s.inputs s
  rw [show aside m s.hRdata s.inputs s = { s with todo := m } from rfl] at h
  rw [h, aside, (act_keeps_host a s).1.symm, (act_keeps_host a s).2.symm]

/-- Nor does a straight program. -/
theorem runActs_with_todo (p : List Act) (s : State) (m : List Micro) :
    runActs p { s with todo := m } = { runActs p s with todo := m } := by
  induction p generalizing s with
  | nil => rfl
  | cons a p ih =>
    simp only [runActs, act_with_todo, show ({ act a s with todo := m } : State).busy = (act a s).busy from rfl, ih]
    split <;> rfl

/-- A micro-action that waits is a wait. -/
theorem act_of_wait {a : Act} {s : State} {n : Nat} (h : waitLength a s = some n) : act a s = waitFor n s := by
  cases a <;> simp [waitLength] at h <;> subst h <;> rfl

/-- What every micro-action leaves as it was: the host's side and the latches of the operation (R14, R55). -/
theorem act_keeps (a : Act) (s : State) :
    HostSideKept s (act a s) ∧ (act a s).opL = s.opL ∧ (act a s).aL = s.aL ∧ (act a s).bL = s.bL := by
  cases a
  case sample => cases h : s.oe <;> cases hs : s.script <;> simp [act, sampleLine, afterSample, h, hs, HostSideKept]
  case checkPresence => simp only [act, checkPresence, failUnless]; split <;> simp [HostSideKept]
  case checkRom => simp only [act, checkRom, failUnless]; split <;> simp [HostSideKept]
  case checkFamily x => simp only [act, checkFamily, failUnless]; split <;> simp [HostSideKept]
  case checkScratchpad =>
    simp only [act, checkScratchpad]
    split
    · simp only [failUnless]; split <;> simp [HostSideKept]
    · simp [HostSideKept]
  case succeedIfSame => simp only [act]; split <;> simp [HostSideKept]
  case succeedUnlessPersist => simp only [act]; split <;> simp [HostSideKept]
  all_goals exact ⟨⟨rfl, rfl, rfl, rfl⟩, rfl, rfl, rfl⟩

/-- What the trace and the drive state keep in common under every micro-action (R13, R80, R82). -/
theorem act_trace (a : Act) (s : State) (hc : canonicalLog s.log = true) (hd : driveAfter s.log = some s.oe) :
    canonicalLog (act a s).log = true ∧ driveAfter (act a s).log = some (act a s).oe := by
  have hf : ∀ (c : Cause) (t : State), t.log = s.log → t.oe = s.oe →
      canonicalLog (fail c t).log = true ∧ driveAfter (fail c t).log = some (fail c t).oe := by
    intro c t h1 h2
    cases ho : s.oe <;> simp [releaseIfLow, h1, h2, ho, hc, hd, release, canonicalLog, driveAfter]
  have hw : ∀ n, canonicalLog (waitFor n s).log = true ∧ driveAfter (waitFor n s).log = some (waitFor n s).oe :=
    fun n => ⟨canonicalLog_pushWait n _ hc, by simp [hd]⟩
  cases a
  case driveLow => simp [act, canonicalLog, driveAfter, hc, hd]
  case release => simp [act, canonicalLog, driveAfter, hc, hd]
  case sample =>
    cases ho : s.oe <;> cases hs : s.script <;>
      simp [act, sampleLine, afterSample, lineLevel, canonicalLog, driveAfter, hc, hd, ho, hs]
  case wait n => exact hw n
  case counting => exact hw _
  case holdLow => exact hw _
  case restOfSlot => exact hw _
  case checkPresence =>
    simp only [act, checkPresence, failUnless]; split
    · exact ⟨hc, hd⟩
    · exact hf _ _ rfl rfl
  case checkRom =>
    simp only [act, checkRom, failUnless]; split
    · exact ⟨hc, hd⟩
    · exact hf _ _ rfl rfl
  case checkFamily x =>
    simp only [act, checkFamily, failUnless]; split
    · exact ⟨hc, hd⟩
    · exact hf _ _ rfl rfl
  case checkScratchpad =>
    simp only [act, checkScratchpad]; split
    · simp only [failUnless]; split
      · exact ⟨hc, hd⟩
      · exact hf _ _ rfl rfl
    · exact ⟨hc, hd⟩
  case succeedIfSame => simp only [act]; split <;> exact ⟨hc, hd⟩
  case succeedUnlessPersist => simp only [act]; split <;> exact ⟨hc, hd⟩
  all_goals exact ⟨hc, hd⟩

/-- The counters stay in their ranges under every micro-action (R18). -/
theorem act_counters (a : Act) (s : State) (h1 : s.bitcnt ≤ 8) (h2 : s.bytecnt ≤ 9) :
    (act a s).bitcnt ≤ 8 ∧ (act a s).bytecnt ≤ 9 := by
  cases a
  case sample => cases h : s.oe <;> cases hs : s.script <;> simp [act, sampleLine, afterSample, h, hs, h1, h2]
  case checkPresence => simp only [act, checkPresence, failUnless]; split <;> simp [h1, h2]
  case checkRom => simp only [act, checkRom, failUnless]; split <;> simp [h1, h2]
  case checkFamily x => simp only [act, checkFamily, failUnless]; split <;> simp [h1, h2]
  case checkScratchpad =>
    simp only [act, checkScratchpad]
    split
    · simp only [failUnless]; split <;> simp [h1, h2]
    · exact ⟨h1, h2⟩
  case succeedIfSame => simp only [act]; split <;> simp [h1, h2]
  case succeedUnlessPersist => simp only [act]; split <;> simp [h1, h2]
  case transfer n => exact ⟨h1, by have := n.isLt; show n.val ≤ 9; omega⟩
  case shiftOut => exact ⟨by show s.bitcnt - 1 ≤ 8; omega, h2⟩
  case shiftIn => exact ⟨by show s.bitcnt - 1 ≤ 8; omega, h2⟩
  case byteDone => exact ⟨h1, by show s.bytecnt - 1 ≤ 9; omega⟩
  all_goals first | exact ⟨h1, h2⟩ | exact ⟨Nat.le_refl 8, h2⟩

/-! One step of the controller. -/

theorem tick_idle (s : State) (h : s.busy = false) : tick s = s := by simp [tick, h]

theorem tick_one (a : Act) (rest : List Micro) (s : State) (h : s.busy = true) (ht : s.todo = .one a :: rest) :
    tick s = tickAct a rest s := by simp [tick, h, ht]

theorem tick_poll (rest : List Micro) (s : State) (h : s.busy = true) (ht : s.todo = .poll :: rest) :
    tick s = { s with todo := straight readSlot ++ .pollTest :: rest } := by simp [tick, h, ht]

theorem tick_pollTest (rest : List Micro) (s : State) (h : s.busy = true) (ht : s.todo = .pollTest :: rest) :
    tick s = { s with todo := if s.bit then rest else .poll :: rest } := by simp [tick, h, ht]

/-- One micro-action at the grain of one step does not look at the host's side, or change it. -/
theorem tickAct_aside (a : Act) (rest : List Micro) (b : Byte) (es : List HostEvent) (s : State) :
    tickAct a rest (aside s.todo b es s) = aside (tickAct a rest s).todo b es (tickAct a rest s) := by
  have ht : (aside s.todo b es s).timer = s.timer := rfl
  have hw : waitLength a (aside s.todo b es s) = waitLength a s := by cases a <;> rfl
  unfold tickAct
  split
  · rw [ht]; cases s.timer <;> rfl
  · rw [hw]
    cases waitLength a s with
    | some n => rfl
    | none => simp only [act_aside, aside_busy]; rfl

/-- A step of the controller does not look at the host's side, or change it (R8). -/
theorem tick_aside (b : Byte) (es : List HostEvent) (s : State) :
    tick (aside s.todo b es s) = aside (tick s).todo b es (tick s) := by
  cases hb : s.busy with
  | false => rw [tick_idle _ hb, tick_idle _ (by exact hb)]
  | true =>
    cases ht : s.todo with
    | nil =>
      rw [← ht]
      unfold tick
      rw [if_pos hb, if_pos (by exact hb), ht]
      simp [aside, ht]
    | cons m rest =>
      rw [← ht]
      cases m with
      | one a => rw [tick_one a rest s hb ht, tick_one a rest _ (by exact hb) (by exact ht)]; exact tickAct_aside a rest b es s
      | poll => rw [tick_poll rest s hb ht, tick_poll rest _ (by exact hb) (by exact ht)]; rfl
      | pollTest => rw [tick_pollTest rest s hb ht, tick_pollTest rest _ (by exact hb) (by exact ht)]; rfl

/-! The issue of an instruction. -/

/-- A meaning is the issue of its instruction, run to its end (R72). -/
theorem exec_eq (i : Instr) (s : State) : exec i s = .next (operate (startOf i) s) := by cases i <;> rfl

/-- In `Idle` a host write of `ARG0` takes place (R42). -/
theorem writeRegister_arg0 (v : Byte) (s : State) (h : s.busy = false) :
    writeRegister 0x02 v s = { s with arg0 := .held v } := by simp [writeRegister, h, regAt]

/-- The bytes of any sampled levels: eight levels a byte (R93). -/
theorem exists_byte (bits : List Bool) (h : bits.length = 8) : ∃ x : Byte, byteBits x = bits := by
  match bits, h with
  | [a, b, c, d, e, f, g, i], _ =>
    exact ⟨[a, b, c, d, e, f, g, i].foldl shiftInBit 0x00, by
      revert a b c d e f g i; decide⟩

/-- Whatever levels are sampled, they are the bits of some bytes (R93). -/
theorem exists_bytes (n : Nat) (bits : List Bool) (h : bits.length = 8 * n) :
    ∃ v : Vector Byte n, bytesBits v.toList = bits := by
  induction n generalizing bits with
  | zero => exact ⟨#v[], by simpa [bytesBits] using h⟩
  | succ n ih =>
    obtain ⟨x, hx⟩ := exists_byte (bits.take 8) (by rw [List.length_take]; omega)
    obtain ⟨v, hv⟩ := ih (bits.drop 8) (by rw [List.length_drop]; omega)
    refine ⟨⟨(x :: v.toList).toArray, by simp⟩, ?_⟩
    have : (⟨(x :: v.toList).toArray, by simp⟩ : Vector Byte (n + 1)).toList = x :: v.toList := by simp [Vector.toList]
    rw [this, bytesBits, List.flatMap_cons, hx, ← bytesBits, hv, List.take_append_drop]

/-! Each operation, issued in `Idle` and waited for, as its program on the state in which it starts. -/

/-- A straight program run from the issue to the end of the operation. -/
def ran (opcode : Byte) (first : Phase) (p : List Act) (s : State) : State :=
  { runActs p (issued opcode first (straight p) s) with todo := [] }

theorem exec_driveLow (s : State) (h : Idle s) :
    exec .driveLow s = .next (ran (encode .driveLow) .direct [.driveLow, .succeed] s) :=
  congrArg Host.Outcome.next (operate_straight _ _ _ s h)

theorem exec_release (s : State) (h : Idle s) :
    exec .release s = .next (ran (encode .release) .direct [.release, .succeed] s) :=
  congrArg Host.Outcome.next (operate_straight _ _ _ s h)

theorem exec_sample (s : State) (h : Idle s) :
    exec .sample s = .next (ran (encode .sample) .direct [.sample, .resultBit, .succeed] s) :=
  congrArg Host.Outcome.next (operate_straight _ _ _ s h)

theorem exec_writeBit (s : State) (h : Idle s) :
    exec .writeBit s = .next (ran (encode .writeBit) .direct ([.bitFromA] ++ writeSlot ++ [.succeed]) s) :=
  congrArg Host.Outcome.next (operate_straight _ _ _ s h)

theorem exec_readBit (s : State) (h : Idle s) :
    exec .readBit s = .next (ran (encode .readBit) .direct (readSlot ++ [.resultBit, .succeed]) s) :=
  congrArg Host.Outcome.next (operate_straight _ _ _ s h)

theorem exec_writeByte (s : State) (h : Idle s) :
    exec .writeByte s = .next (ran (encode .writeByte) .direct (sendByte .argA ++ [.succeed]) s) :=
  congrArg Host.Outcome.next (operate_straight _ _ _ s h)

theorem exec_readByte (s : State) (h : Idle s) :
    exec .readByte s = .next (ran (encode .readByte) .direct (receiveByte ++ [.resultByte, .succeed]) s) :=
  congrArg Host.Outcome.next (operate_straight _ _ _ s h)

theorem exec_reset (s : State) (h : Idle s) :
    exec .reset s = .next (ran (encode .reset) .resetPresence (busReset ++ [.checkPresence, .succeed]) s) :=
  congrArg Host.Outcome.next (operate_straight _ _ _ s h)

theorem exec_select (s : State) (h : Idle s) :
    exec .select s = .next (ran (encode .select) .resetPresence (select .argA .argB false ++ [.succeed]) s) :=
  congrArg Host.Outcome.next (operate_straight _ _ _ s h)

theorem exec_selectAny (s : State) (h : Idle s) :
    exec .selectAny s = .next (ran (encode .selectAny) .resetPresence (select .argA (.lit 0x00) true ++ [.succeed]) s) :=
  congrArg Host.Outcome.next (operate_straight _ _ _ s h)

theorem exec_crcUpdate (s : State) (h : Idle s) :
    exec .crcUpdate s = .next (ran (encode .crcUpdate) .direct [.resultCrc, .succeed] s) :=
  congrArg Host.Outcome.next (operate_straight _ _ _ s h)

theorem exec_readScratchpad (s : State) (h : Idle s) :
    exec .readScratchpad s = .next (ran (encode .readScratchpad) .resetPresence (readScratchpad ++ [.succeed]) s) :=
  congrArg Host.Outcome.next (operate_straight _ _ _ s h)

theorem exec_writeScratchpad (s : State) (h : Idle s) :
    exec .writeScratchpad s = .next (ran (encode .writeScratchpad) .resetPresence (writeScratchpad ++ [.succeed]) s) :=
  congrArg Host.Outcome.next (operate_straight _ _ _ s h)

theorem exec_setResolution (s : State) (h : Idle s) :
    exec .setResolution s = .next (ran (encode .setResolution) .resetPresence
      (readScratchpad ++ .succeedIfSame :: .setConfig ::
        (writeScratchpad ++ .succeedUnlessPersist :: (selectDs .copyScratchpad ++ [.succeed]))) s) := by
  rw [show readScratchpad ++ .succeedIfSame :: .setConfig ::
      (writeScratchpad ++ .succeedUnlessPersist :: (selectDs .copyScratchpad ++ [.succeed])) =
    readScratchpad ++ [.succeedIfSame, .setConfig] ++ writeScratchpad ++ [.succeedUnlessPersist]
      ++ selectDs .copyScratchpad ++ [.succeed] by simp]
  exact congrArg Host.Outcome.next (operate_straight _ _ _ s h)

theorem exec_readTemperature (s : State) (h : Idle s) :
    exec .readTemperature s = .next (run
      (straight (selectDs .convertT ++ [.enter .dataTransfer]) ++ .poll ::
        straight (readScratchpad ++ [.resultTemperature, .succeed]))
      (issued (encode .readTemperature) .resetPresence
        (straight (selectDs .convertT ++ [.enter .dataTransfer]) ++ .poll ::
          straight (readScratchpad ++ [.resultTemperature, .succeed])) s)) :=
  congrArg Host.Outcome.next (operate_issue _ _ _ s h)

/-- `READ_TEMPERATURE` up to the end of its poll (R123, R126). -/
theorem run_converted (r : Vector Byte 8) (zeros : Nat) (more : List Bool) (rest : List Micro) (s : State)
    (h : s.busy = true) (hs : s.upcoming 65 = selectAnswers r) (hr : DsRomOk r)
    (hp : s.script.drop 65 = List.replicate zeros false ++ true :: more) :
    run (straight (selectDs .convertT ++ [.enter .dataTransfer]) ++ .poll :: rest) s =
      run rest (polled zeros more { selected r 0x44 s with phase := .dataTransfer }) := by
  rw [run_straight_append _ _ _ h, runActs_then _ _ _ _ h (runActs_selectDs_ok _ r s h hs hr) rfl,
    show runActs [.enter .dataTransfer] (selected r (encode .convertT) s) =
      { selected r 0x44 s with phase := .dataTransfer } from rfl,
    if_pos (show State.busy _ = true from rfl), run, pollLoop_ends zeros more _ rfl (by exact hp)]
  simp

/-- The host line `WRITE_BYTE code` (R72). -/
theorem operate_startWire (code : Byte) (s : State) (h : Idle s) :
    operate (startWire code) s = ran (encode .writeByte) .direct (sendByte .argA ++ [.succeed]) { s with arg0 := .held code } := by
  have hb : s.busy = false := (not_busy_iff s).2 h
  have hs : startWire code s = startWriteByte { s with arg0 := .held code } := by rw [startWire, writeRegister_arg0 _ _ hb]
  rw [operate, hb, hs]
  exact (if_neg (by simp)).trans
    (((if_neg (by rw [show ({ s with arg0 := .held code } : State).busy = false from hb]; simp)).symm : _ = operate startWriteByte
      { s with arg0 := .held code }).trans (operate_straight _ _ _ { s with arg0 := .held code } h))

end Sys2Proof.Machine
end

