-- ==== Sys2Proof/Laws/PerInstr.lean ====
section
/-!
SUPPORT. The family `EncodeDecode`, instruction by instruction: every instruction is well formed and the decoder reads it
from its own word, alone and at the head of a list of bytes (30_encoding.md rules R60, R62, R68).
-/

namespace Sys2Proof.Laws.EncodeDecode

/-- What the family states of an instruction. -/
def Statement (i : Instr) : Prop :=
  i.wellFormed = true ∧ decodeByte (encode i) = .ok i ∧ ∀ rest, decodeBytes (encode i :: rest) = .ok (i, rest)

theorem driveLow : Statement .driveLow := ⟨rfl, rfl, fun _ => rfl⟩
theorem release : Statement .release := ⟨rfl, rfl, fun _ => rfl⟩
theorem sample : Statement .sample := ⟨rfl, rfl, fun _ => rfl⟩
theorem writeBit : Statement .writeBit := ⟨rfl, rfl, fun _ => rfl⟩
theorem readBit : Statement .readBit := ⟨rfl, rfl, fun _ => rfl⟩
theorem writeByte : Statement .writeByte := ⟨rfl, rfl, fun _ => rfl⟩
theorem readByte : Statement .readByte := ⟨rfl, rfl, fun _ => rfl⟩
theorem reset : Statement .reset := ⟨rfl, rfl, fun _ => rfl⟩
theorem select : Statement .select := ⟨rfl, rfl, fun _ => rfl⟩
theorem selectAny : Statement .selectAny := ⟨rfl, rfl, fun _ => rfl⟩
theorem crcUpdate : Statement .crcUpdate := ⟨rfl, rfl, fun _ => rfl⟩
theorem readScratchpad : Statement .readScratchpad := ⟨rfl, rfl, fun _ => rfl⟩
theorem writeScratchpad : Statement .writeScratchpad := ⟨rfl, rfl, fun _ => rfl⟩
theorem readTemperature : Statement .readTemperature := ⟨rfl, rfl, fun _ => rfl⟩
theorem setResolution : Statement .setResolution := ⟨rfl, rfl, fun _ => rfl⟩
theorem searchRom : Statement .searchRom := ⟨rfl, rfl, fun _ => rfl⟩
theorem readRom : Statement .readRom := ⟨rfl, rfl, fun _ => rfl⟩
theorem matchRom : Statement .matchRom := ⟨rfl, rfl, fun _ => rfl⟩
theorem skipRom : Statement .skipRom := ⟨rfl, rfl, fun _ => rfl⟩
theorem alarmSearch : Statement .alarmSearch := ⟨rfl, rfl, fun _ => rfl⟩
theorem convertT : Statement .convertT := ⟨rfl, rfl, fun _ => rfl⟩
theorem writeScratchpadCmd : Statement .writeScratchpadCmd := ⟨rfl, rfl, fun _ => rfl⟩
theorem readScratchpadCmd : Statement .readScratchpadCmd := ⟨rfl, rfl, fun _ => rfl⟩
theorem copyScratchpad : Statement .copyScratchpad := ⟨rfl, rfl, fun _ => rfl⟩
theorem recallEeprom : Statement .recallEeprom := ⟨rfl, rfl, fun _ => rfl⟩
theorem readPowerSupply : Statement .readPowerSupply := ⟨rfl, rfl, fun _ => rfl⟩

end Sys2Proof.Laws.EncodeDecode
end

