-- ==== Sys2Proof/Laws/Stepping.lean ====
section
/-!
SUPPORT. Laws of the controller's steps: a micro-action and a straight program taken one step at a time come to what they
come to at once, and no step on the way but an `enter` leaves the phase (R20, R51, R148).
-/

namespace Sys2Proof.Machine

/-- One microsecond of a wait, as a step. -/
theorem tick_counting (rest : List Micro) (left : Nat) (s : State) (h : s.busy = true)
    (ht : s.todo = .one .counting :: rest) (hl : s.timer = left + 1) : tick s = countDown s left := by
  rw [tick_one _ _ _ h ht, tickAct, if_pos rfl, hl]

/-- The end of a wait, as a step. -/
theorem tick_counted (rest : List Micro) (s : State) (h : s.busy = true) (ht : s.todo = .one .counting :: rest)
    (hl : s.timer = 0) : tick s = { s with todo := rest } := by
  rw [tick_one _ _ _ h ht, tickAct, if_pos rfl, hl]

/-- A wait counted out (R18, R86). -/
theorem ticks_counting (rest : List Micro) (n k : Nat) (hk : k ≤ n) (s : State) (h : s.busy = true)
    (ht : s.todo = .one .counting :: rest) (hn : s.timer = n) :
    tick^[k] s = { s with timer := n - k, log := pushWait k s.log } := by
  induction k with
  | zero => subst hn; rfl
  | succ k ih =>
    rw [Function.iterate_succ_apply', ih (by omega)]
    exact (tick_counting rest (n - (k + 1)) { s with timer := n - k, log := pushWait k s.log } h ht
      (by show n - k = _; omega)).trans (by simp only [countDown, pushWait_pushWait])

/-- A micro-action other than the rest of a wait, taken step by step: it comes to its whole effect, and until then the phase
and the flags stay. -/
theorem ticks_act (a : Act) (ha : a ≠ .counting) (rest : List Micro) (s : State) (h : s.busy = true)
    (ht : s.todo = .one a :: rest) :
    ∃ n, tick^[n + 1] s = { act a s with todo := if (act a s).busy then rest else [] } ∧
      ∀ m, m ≤ n → (tick^[m] s).phase = s.phase ∧ (tick^[m] s).ok = s.ok := by
  have h1 := tick_one a rest s h ht
  rw [tickAct, if_neg ha] at h1
  cases hw : waitLength a s with
  | none =>
    refine ⟨0, by rw [hw] at h1; exact h1, fun m hm => ?_⟩
    obtain rfl : m = 0 := by omega
    exact ⟨rfl, rfl⟩
  | some n =>
    rw [hw] at h1
    have hc := ticks_counting rest n
    refine ⟨n + 1, ?_, fun m hm => ?_⟩
    · rw [Function.iterate_succ_apply, h1, Function.iterate_succ_apply', hc n (Nat.le_refl n) _ (by exact h) rfl rfl]
      rw [tick_counted rest _ (by exact h) rfl (by exact Nat.sub_self n), act_of_wait hw,
        if_pos (show (waitFor n s).busy = true from h)]
      simp only [Nat.sub_self]
      rfl
    · cases m with
      | zero => exact ⟨rfl, rfl⟩
      | succ m =>
        rw [Function.iterate_succ_apply, h1, hc m (by omega) _ (by exact h) rfl rfl]
        exact ⟨rfl, rfl⟩

/-- A micro-action that leaves the block busy and enters no phase keeps the phase and the flags. -/
theorem act_keeps_phase (a : Act) (ha : ∀ p, a ≠ .enter p) (s : State) (h : (act a s).busy = true) :
    (act a s).phase = s.phase ∧ (act a s).ok = s.ok := by
  have hf : ∀ (ok : Bool) (c : Cause) (t : State), (failUnless ok c t).busy = true →
      (failUnless ok c t).phase = t.phase ∧ (failUnless ok c t).ok = t.ok := by
    intro ok c t h
    cases ok
    · rw [failUnless, if_neg (by simp), fail_busy] at h; exact absurd h (by simp)
    · exact ⟨rfl, rfl⟩
  have hs : ∀ t : State, ¬ (succeed t).busy = true := fun t => by simp [State.busy]
  cases a
  case enter p => exact absurd rfl (ha p)
  case sample => cases ho : s.oe <;> cases hs : s.script <;> simp [act, sampleLine, afterSample, ho, hs]
  case checkPresence => exact hf _ _ _ h
  case checkRom => exact hf _ _ _ h
  case checkFamily x => exact hf _ _ _ h
  case checkScratchpad =>
    simp only [act, checkScratchpad] at h ⊢
    cases he : Config.spadCrcEn
    · simp
    · rw [he] at h; exact hf _ _ _ h
  case succeedIfSame =>
    simp only [act] at h ⊢
    by_cases hc : resolutionField s.image[4] = resolutionOperand s.aL
    · rw [if_pos hc] at h; exact absurd h (hs _)
    · rw [if_neg hc]; exact ⟨rfl, rfl⟩
  case succeedUnlessPersist =>
    simp only [act] at h ⊢
    by_cases hc : persistOperand s.bL = true
    · rw [if_pos hc]; exact ⟨rfl, rfl⟩
    · rw [if_neg hc] at h; exact absurd h (hs _)
  case succeed => exact absurd h (hs _)
  all_goals exact ⟨rfl, rfl⟩

/-- A straight program taken step by step comes to what it comes to at once (R51, R54); if it enters no phase, the phase and
the flags stay until its last step. -/
theorem ticks_acts (p : List Act) (hp : .counting ∉ p) (rest : List Micro) (s : State) (h : s.busy = true)
    (ht : s.todo = straight p ++ rest) :
    ∃ n, tick^[n] s = { runActs p s with todo := if (runActs p s).busy then rest else [] } ∧
      ((∀ q, .enter q ∉ p) → ∀ m, m < n → (tick^[m] s).phase = s.phase ∧ (tick^[m] s).ok = s.ok) := by
  induction p generalizing s with
  | nil => exact ⟨0, by simp [runActs, h, ← show s.todo = rest from ht], fun _ m hm => absurd hm (by omega)⟩
  | cons a p ih =>
    obtain ⟨n, hn, hm⟩ := ticks_act a (fun e => hp (by simp [e])) (straight p ++ rest) s h ht
    by_cases hb : (act a s).busy = true
    · rw [if_pos hb] at hn
      obtain ⟨k, hk, hkm⟩ := ih (fun e => hp (by simp [e])) { act a s with todo := straight p ++ rest } hb rfl
      refine ⟨n + 1 + k, ?_, fun he m hmk => ?_⟩
      · rw [Nat.add_comm, Function.iterate_add_apply, hn, hk, runActs_with_todo, runActs, if_pos hb]
        rfl
      · by_cases hlt : m ≤ n
        · exact hm m hlt
        · obtain ⟨j, rfl⟩ : ∃ j, m = j + (n + 1) := ⟨m - (n + 1), by omega⟩
          have := hkm (fun q e => he q (by simp [e])) j (by omega)
          rw [Function.iterate_add_apply, hn, this.1, this.2]
          exact act_keeps_phase a (fun q e => he q (by simp [e])) s hb
    · rw [if_neg hb] at hn
      refine ⟨n + 1, by rw [hn, runActs, if_neg hb, if_neg hb], fun _ m hmn => hm m (by omega)⟩

/-- A program that enters no phase and leaves the block busy keeps the phase. -/
theorem runActs_keeps_phase (p : List Act) (hp : ∀ q, .enter q ∉ p) (s : State) (h : (runActs p s).busy = true) :
    (runActs p s).phase = s.phase := by
  induction p generalizing s with
  | nil => rfl
  | cons a p ih =>
    rw [runActs] at h ⊢
    have ha : ∀ q, a ≠ .enter q := fun q e => hp q (by simp [e])
    by_cases hb : (act a s).busy = true
    · rw [if_pos hb] at h ⊢
      rw [ih (fun q e => hp q (by simp [e])) _ h, (act_keeps_phase a ha s hb).1]
    · rw [if_neg hb] at h; exact absurd h hb

/-- A straight program up to the entry of the next phase, step by step: the phase is left only when all before it is done
(R20). -/
theorem ticks_to_phase (p : List Act) (hc : .counting ∉ p) (hp : ∀ q, .enter q ∉ p) (q : Phase) (hq : q ≠ .idle)
    (rest : List Micro) (s : State) (h : s.busy = true) (ht : s.todo = straight p ++ .one (.enter q) :: rest)
    (hb : (runActs p s).busy = true) :
    ∃ n, 0 < n ∧ tick^[n] s = { runActs p s with phase := q, todo := rest } ∧ ∀ m, m < n → (tick^[m] s).phase = s.phase := by
  obtain ⟨n, hn, hm⟩ := ticks_acts p hc _ s h ht
  rw [if_pos hb] at hn
  refine ⟨n + 1, by omega, ?_, fun m hmn => ?_⟩
  · rw [Function.iterate_succ_apply', hn]
    refine (tick_one (.enter q) rest { runActs p s with todo := .one (.enter q) :: rest } hb rfl).trans ?_
    simp [tickAct, waitLength, act, State.busy, hq]
  · by_cases hlt : m < n
    · exact (hm hp m hlt).1
    · obtain rfl : m = n := by omega
      rw [hn]; exact runActs_keeps_phase p hp s hb

/-- One turn of the poll, step by step: a read slot, and then the poll again or what stands behind it (R123). -/
theorem poll_slot (rest : List Micro) (s : State) (h : s.busy = true) (ht : s.todo = .poll :: rest) :
    ∃ n, 0 < n ∧ (∀ m, m ≤ n → (tick^[m] s).phase = s.phase ∧ (tick^[m] s).ok = s.ok) ∧
      tick^[n] s = { consume 1 s with oe := false, timer := 0, bit := answer s
                                      log := (readSlotTrace (answer s)).reverse ++ s.log
                                      todo := if answer s then rest else .poll :: rest } := by
  have h1 := tick_poll rest s h ht
  obtain ⟨n, hn, hm⟩ := ticks_acts readSlot (by decide) (.pollTest :: rest) (tick s) (by rw [h1]; exact h) (by rw [h1])
  rw [runActs_readSlot _ (by rw [h1]; exact h), if_pos (by rw [h1]; exact h)] at hn
  have ha : answer (tick s) = answer s := by rw [h1]; rfl
  have hlast : tick^[n + 1 + 1] s = { consume 1 s with oe := false, timer := 0, bit := answer s
                                                       log := (readSlotTrace (answer s)).reverse ++ s.log
                                                       todo := if answer s then rest else .poll :: rest } := by
    rw [Function.iterate_succ_apply, Function.iterate_succ_apply', hn, tick_pollTest rest _ (by rw [h1]; exact h) rfl]
    simp only [ha]
    rw [h1]
    rfl
  refine ⟨n + 1 + 1, by omega, fun m hmn => ?_, hlast⟩
  by_cases h2 : m = n + 2
  · subst h2; rw [hlast]; exact ⟨rfl, rfl⟩
  · cases m with
    | zero => exact ⟨rfl, rfl⟩
    | succ m =>
      rw [Function.iterate_succ_apply]
      by_cases h3 : m < n
      · have := hm (by simp [readSlot]) m h3; rw [h1] at this ⊢; exact this
      · obtain rfl : m = n := by omega
        rw [hn, h1]; exact ⟨rfl, rfl⟩

/-- The controller's steps do not look at the host's side, or change it (R8). -/
theorem ticks_aside (b : Byte) (es : List HostEvent) (n : Nat) (s : State) :
    tick^[n] (aside s.todo b es s) = aside (tick^[n] s).todo b es (tick^[n] s) := by
  induction n generalizing s with
  | zero => rfl
  | succ n ih => rw [Function.iterate_succ_apply, tick_aside, ih, Function.iterate_succ_apply]

end Sys2Proof.Machine
end

