-- ==== Sys2Proof/Tests/Slice0.lean ====
section
/-!
SUPPORT. The model's own tests: ill-formed terms refused, words written out from the spec's tables decoded, one step of each
instruction against the vectors of 95_test_vectors.md, and for every statement with hypotheses a state that meets them.
-/

namespace Sys2Proof.Tests

-- One test after the other: each has its own thread and stack otherwise, and memory runs out.
set_option Elab.async false

open Sys2Proof Sys2Proof.Machine

/-! Well-formedness: each check refuses an ill-formed term. -/

theorem test_wf_form_n_takes_no_operand : (AsmLine.op .reset [0x01]).wellFormed = false := by decide
theorem test_wf_form_a_takes_one_operand : (AsmLine.op .writeByte []).wellFormed = false := by decide
theorem test_wf_form_ab_takes_two_operands : (AsmLine.op .select [0xBE]).wellFormed = false := by decide
theorem test_wf_form_s_takes_no_operand : (AsmLine.op .writeScratchpad [0x01]).wellFormed = false := by decide
theorem test_wf_wire_takes_no_operand : (AsmLine.op .skipRom [0xCC]).wellFormed = false := by decide
theorem test_wf_setBuf_index_nine : (AsmLine.setBuf 9 0x00).wellFormed = false := by decide
theorem test_wf_setBuf_index_eight : (AsmLine.setBuf 8 0x00).wellFormed = true := by decide
theorem test_wf_word_of_nine_bits : wordWellFormed 9 0x01 = false := by decide
theorem test_wf_word_too_large : wordWellFormed 8 256 = false := by decide
theorem test_wf_ill_formed_line_stands_for_nothing :
    lineEvents (.op .select [0xBE]) = [] ∧ lineEvents (.setBuf 9 0x00) = [] := by decide

/-! Decoding: the words of R62 (`GRP`, `FN`) and R68, bit by bit. -/

theorem test_decode_driveLow : decodeTableWord 8 0b00000001 = some .driveLow := by decide
theorem test_decode_release : decodeTableWord 8 0b00000010 = some .release := by decide
theorem test_decode_sample : decodeTableWord 8 0b00000011 = some .sample := by decide
theorem test_decode_writeBit : decodeTableWord 8 0b00010000 = some .writeBit := by decide
theorem test_decode_readBit : decodeTableWord 8 0b00010001 = some .readBit := by decide
theorem test_decode_writeByte : decodeTableWord 8 0b00010010 = some .writeByte := by decide
theorem test_decode_readByte : decodeTableWord 8 0b00010011 = some .readByte := by decide
theorem test_decode_reset : decodeTableWord 8 0b00100000 = some .reset := by decide
theorem test_decode_select : decodeTableWord 8 0b00100001 = some .select := by decide
theorem test_decode_selectAny : decodeTableWord 8 0b00100010 = some .selectAny := by decide
theorem test_decode_crcUpdate : decodeTableWord 8 0b00110000 = some .crcUpdate := by decide
theorem test_decode_readScratchpad : decodeTableWord 8 0b01000000 = some .readScratchpad := by decide
theorem test_decode_writeScratchpad : decodeTableWord 8 0b01000001 = some .writeScratchpad := by decide
theorem test_decode_readTemperature : decodeTableWord 8 0b01000010 = some .readTemperature := by decide
theorem test_decode_setResolution : decodeTableWord 8 0b01000011 = some .setResolution := by decide
theorem test_decode_searchRom : decodeTableWord 8 0b11110000 = some .searchRom := by decide
theorem test_decode_readRom : decodeTableWord 8 0b00110011 = some .readRom := by decide
theorem test_decode_matchRom : decodeTableWord 8 0b01010101 = some .matchRom := by decide
theorem test_decode_skipRom : decodeTableWord 8 0b11001100 = some .skipRom := by decide
theorem test_decode_alarmSearch : decodeTableWord 8 0b11101100 = some .alarmSearch := by decide
theorem test_decode_convertT : decodeTableWord 8 0b01000100 = some .convertT := by decide
theorem test_decode_writeScratchpadCmd : decodeTableWord 8 0b01001110 = some .writeScratchpadCmd := by decide
theorem test_decode_readScratchpadCmd : decodeTableWord 8 0b10111110 = some .readScratchpadCmd := by decide
theorem test_decode_copyScratchpad : decodeTableWord 8 0b01001000 = some .copyScratchpad := by decide
theorem test_decode_recallEeprom : decodeTableWord 8 0b10111000 = some .recallEeprom := by decide
theorem test_decode_readPowerSupply : decodeTableWord 8 0b10110100 = some .readPowerSupply := by decide
theorem test_decode_reserved : decodeByte 0x7F = .error (.reserved 0x7F) ∧ decodeBytes [] = .error .noByte := by decide
/-- V61: a wire command code is not an opcode of the block. -/
theorem test_decode_wire_code_is_no_opcode : decodeOpcode 0x44 = none ∧ decodeOpcode 0xBE = none := by decide
theorem test_rows_do_not_overlap : ((opcodeRows ++ wireRows).map (·.1)).Nodup := by decide

/-! Small states, and what an operation leaves. -/

/-- The state right after reset, with the levels the environment will answer. -/
def fed (bits : List Bool) : State := { State.reset with script := bits }

/-- The state an instruction leaves. -/
def after (i : Instr) (s : State) : State :=
  match exec i s with
  | .next t => t
  | .fault _ | .refused _ => s

/-- The state a step leaves. -/
def stepped (s : State) : State :=
  match step s with
  | .next t => t
  | .fault _ | .refused _ => s

/-- The state with the host about to do `e`. -/
def about (e : HostEvent) (s : State) : State := { s with inputs := [e] }

/-- In the middle of `READ_BYTE` (V62, V63). -/
def inReadByte : State := startReadByte (fed (byteBits 0x28))

/-- `ROM_A` of 95_test_vectors.md. -/
def romA : Vector Byte 8 := #v[0x28, 0x01, 0x02, 0x03, 0x04, 0x05, 0x06, 0x9E]
/-- `ROM_B` of 95_test_vectors.md. -/
def romB : Vector Byte 8 := #v[0x10, 0x01, 0x02, 0x03, 0x04, 0x05, 0x06, 0x7B]
/-- `ROM_A` with one bit of byte 3 flipped (V23). -/
def romBad : Vector Byte 8 := #v[0x28, 0x01, 0x02, 0x13, 0x04, 0x05, 0x06, 0x9E]
/-- `SP_85` of 95_test_vectors.md. -/
def sp85 : Vector Byte 9 := #v[0x50, 0x05, 0x4B, 0x46, 0x7F, 0xFF, 0x0C, 0x10, 0x1C]
/-- `SP_85` with a flipped bit (V41). -/
def spBad : Vector Byte 9 := #v[0x50, 0x05, 0x4B, 0x46, 0x7F, 0xFF, 0x0D, 0x10, 0x1C]
/-- The scratchpad with configuration 0x1F (P3, V32d). -/
def sp9 : Vector Byte 9 := #v[0x50, 0x05, 0x4B, 0x46, 0x1F, 0xFF, 0x0C, 0x10, 0x8C]

/-! Line primitives: V10 to V15. -/

theorem test_driveLow : (after .driveLow State.reset).trace = [.low] ∧ (after .driveLow State.reset).status = 0x02 := by
  decide
theorem test_release :
    (after .release { State.reset with oe := true }).trace = [.rel] ∧
    (after .release { State.reset with oe := true }).oe = false := by decide
theorem test_sample_released : (after .sample (fed [true])).res0 = .held 0x01 ∧ (after .sample (fed [true])).trace = [.sampled true] := by
  decide
theorem test_sample_low :
    (after .sample { fed [true] with oe := true, res0 := .held 0xFF }).res0 = .held 0x00 ∧
    (after .sample { fed [true] with oe := true }).script = [true] := by decide

/-! Slots and bytes: V16 to V19. -/

theorem test_writeBit_one :
    (after .writeBit { State.reset with arg0 := .held 0xFF }).trace = [.low, .wait 5, .rel, .wait (restTime true)] := rfl
theorem test_writeBit_only_bit_zero :
    (after .writeBit { State.reset with arg0 := .held 0x02 }).trace = [.low, .wait 60, .rel, .wait (restTime false)] := rfl
theorem test_readBit_one : (after .readBit (fed [true])).res0 = .held 0x01 := by decide
theorem test_readBit_slot :
    (after .readBit (fed [false])).trace = [.low, .wait 1, .rel, .wait 14, .sampled false, .wait readRestTime] := rfl
theorem test_writeByte_order :
    sentBits (after .writeByte { State.reset with arg0 := .held 0x33 }).trace =
      [true, true, false, false, true, true, false, false] := by decide +kernel
theorem test_writeByte_keeps_arg0 : (after .writeByte { State.reset with arg0 := .held 0x80 }).arg0 = .held 0x80 := by decide +kernel
theorem test_readByte_first_sample_is_bit_zero :
    (after .readByte (fed [true, false, false, false, false, false, false, false])).res0 = .held 0x01 := by decide +kernel
theorem test_readByte_family :
    (after .readByte (fed [false, false, false, true, false, true, false, false])).res0 = .held 0x28 := by decide +kernel

/-! Session: V20 to V29. -/

theorem test_reset_present : (after .reset (fed [false])).status = 0x02 := by decide +kernel
theorem test_reset_absent :
    (after .reset (fed [true])).status = 0x00 ∧ (after .reset (fed [true])).cause = some .noPresence := by decide +kernel
theorem test_select_ok :
    (after .select { fed (selectAnswers romA) with arg0 := .held 0xBE, arg1 := .held 0x28 }).ok = true := by decide +kernel
theorem test_select_family :
    (after .select { fed (selectAnswers romB) with arg0 := .held 0x44, arg1 := .held 0x28 }).cause = some .familyMismatch := by
  decide +kernel
theorem test_selectAny_family : (after .selectAny { fed (selectAnswers romB) with arg0 := .held 0x44 }).ok = true := by
  decide +kernel
theorem test_selectAny_crc : (after .selectAny { fed (selectAnswers romBad) with arg0 := .held 0xBE }).cause = some .romCrc := by
  decide +kernel

/-! CRC8: V30 to V34. -/

theorem test_crcUpdate :
    (after .crcUpdate { State.reset with arg0 := .held 0xAB, arg1 := .held 0xCD }).res0 = .held 0xB8 ∧
    (after .crcUpdate { State.reset with arg0 := .held 0xAB, arg1 := .held 0xCD }).trace = [] := by decide
theorem test_crcUpdate_running : (after .crcUpdate { State.reset with arg0 := .held 0xE1, arg1 := .held 0x01 }).res0 = .held 0xE9 := by decide
theorem test_crc_ascii : crc8 0x00 [0x31, 0x32, 0x33, 0x34, 0x35, 0x36, 0x37, 0x38, 0x39] = 0xA1 := by decide +kernel
theorem test_crc_idle_line : residue (List.replicate 8 0xFF) = 0xC9 ∧ residue (List.replicate 9 0xFF) = 0x63 := by decide +kernel
theorem test_crc_images : residue romA.toList = 0x00 ∧ residue romB.toList = 0x00 ∧ residue sp85.toList = 0x00 ∧
    residue romBad.toList ≠ 0x00 ∧ residue spBad.toList ≠ 0x00 ∧ residue sp9.toList = 0x00 := by decide +kernel

/-! DS18B20: V40 to V58. The scratchpad validation is a build parameter, so what stands behind it is tested in parts. -/

theorem test_readScratchpad_bytes :
    (runActs (selectDs .readScratchpadCmd ++ readImage)
      { fed (selectAnswers romA ++ bytesBits sp85.toList) with phase := .resetPresence }).buf = heldImage sp85 := by decide +kernel
theorem test_readScratchpad_validation :
    (checkScratchpad true { inReadByte with buf := heldImage spBad }).cause = some .scratchpadCrc ∧
    (checkScratchpad false { inReadByte with buf := heldImage spBad }).buf = heldImage spBad := by decide +kernel
theorem test_writeScratchpad_ends : (after .writeScratchpad { fed (selectAnswers romA) with buf := heldImage sp9 }).status = 0x02 := by
  decide +kernel
theorem test_writeScratchpad_bytes :
    sentBits (runActs writeImage { inReadByte with buf := heldImage sp9 }).trace = bytesBits [0x4B, 0x46, 0x1F] := by decide +kernel
theorem test_writeScratchpad_keeps_buf :
    (after .writeScratchpad { fed [true] with buf := heldImage sp9 }).buf = heldImage sp9 := by decide +kernel
/-- V49: the poll goes on while zeros come. -/
theorem test_readTemperature_polls :
    (after .readTemperature (fed (selectAnswers romA ++ [false, false]))).status = 0x01 ∧
    (after .readTemperature (fed (selectAnswers romA ++ [false, false]))).todo.head? = some .poll := by decide +kernel
/-- V50: the poll ends at a 1, and the second session finds no device. -/
theorem test_readTemperature_second_session :
    (after .readTemperature (fed (selectAnswers romA ++ [true, true]))).cause = some .noPresence ∧
    (after .readTemperature (fed (selectAnswers romA ++ [true, true]))).script = [] := by decide +kernel
/-- V53 and V58: the configuration byte sent. -/
theorem test_setResolution_field :
    withResolution 0x7F 0b00 = 0x1F ∧ withResolution 0xDF 0b01 = 0xBF ∧ withResolution 0x7F 0b10 = 0x5F := by decide
/-- V57: only two bits of the operand count. -/
theorem test_setResolution_operand :
    (act .succeedIfSame { inReadByte with buf := heldImage sp85, aL := 0xFF }).status = 0x02 ∧
    (act .succeedIfSame { inReadByte with buf := heldImage sp85, aL := 0x00 }).status = 0x01 := by decide +kernel
/-- V4 and V48. -/
theorem test_temperature :
    temperatureInt 0x01 0x91 = 401 ∧ temperatureInt 0x00 0x00 = 0 ∧ temperatureInt 0xFF 0x5E = -162 := by decide

/-! Wire command codes: what goes out is the code, bit 0 first. -/

theorem test_searchRom : sentBits (after .searchRom State.reset).trace = byteBits 0xF0 := by decide +kernel
theorem test_readRom : sentBits (after .readRom State.reset).trace = byteBits 0x33 := by decide +kernel
theorem test_matchRom : sentBits (after .matchRom State.reset).trace = byteBits 0x55 := by decide +kernel
theorem test_skipRom : sentBits (after .skipRom State.reset).trace = byteBits 0xCC := by decide +kernel
theorem test_alarmSearch : sentBits (after .alarmSearch State.reset).trace = byteBits 0xEC := by decide +kernel
theorem test_convertT : sentBits (after .convertT State.reset).trace = byteBits 0x44 := by decide +kernel
theorem test_writeScratchpadCmd : sentBits (after .writeScratchpadCmd State.reset).trace = byteBits 0x4E := by decide +kernel
theorem test_readScratchpadCmd : sentBits (after .readScratchpadCmd State.reset).trace = byteBits 0xBE := by decide +kernel
theorem test_copyScratchpad : sentBits (after .copyScratchpad State.reset).trace = byteBits 0x48 := by decide +kernel
theorem test_recallEeprom : sentBits (after .recallEeprom State.reset).trace = byteBits 0xB8 := by decide +kernel
theorem test_readPowerSupply : sentBits (after .readPowerSupply State.reset).trace = byteBits 0xB4 := by decide +kernel

/-! Host interface: V60 to V69. -/

theorem test_reserved_opcode :
    stepped (about (.write 0x00 0x00) { State.reset with ok := true }) = { State.reset with ok := false } := by decide
theorem test_busy_drops_cmd : stepped (about (.write 0x00 0x20) inReadByte) = inReadByte := rfl
theorem test_busy_ignores_writes :
    stepped (about (.write 0x02 0x77) inReadByte) = inReadByte ∧ stepped (about (.write 0x0A 0x77) inReadByte) = inReadByte :=
  ⟨rfl, rfl⟩
theorem test_read_empty_offsets :
    (stepped (about (.read 0x00) { State.reset with hRdata := 0xAA })).hRdata = 0x00 ∧
    (stepped (about (.read 0x06) { State.reset with hRdata := 0xAA })).hRdata = 0x00 ∧
    (stepped (about (.read 0x1F) { State.reset with hRdata := 0xAA })).hRdata = 0x00 := by decide
theorem test_write_read_only :
    stepped (about (.write 0x01 0xFF) State.reset) = State.reset ∧ stepped (about (.write 0x04 0xFF) State.reset) = State.reset ∧
    stepped (about (.write 0x11 0xFF) State.reset) = State.reset := by decide
theorem test_write_then_read :
    (stepped (about (.read 0x02) (stepped (about (.write 0x02 0x12) State.reset)))).hRdata = 0x12 := by decide
theorem test_buf_last_offset :
    (stepped (about (.write 0x10 0x99) State.reset)).buf[8] = .held 0x99 ∧ regAt 0x08 = .buf 0 ∧ regAt 0x11 = .none := by decide
/-- V67: the operand of a running slot is the latch. -/
theorem test_operand_is_latched :
    (stepped (about .pause (startWriteBit { State.reset with arg0 := .held 0x01 }))).bit = true ∧
    (stepped (about (.write 0x02 0x00) (startWriteBit { State.reset with arg0 := .held 0x01 }))).aL = 0x01 := by decide +kernel
/-- V68. -/
theorem test_rst :
    (stepped (about .rst (after .driveLow State.reset))).oe = false ∧
    (stepped (about .rst (after .driveLow State.reset))).status = 0x00 := by decide
/-- After the reset input a data register holds any value: two reads are two draws (R9, R24). -/
theorem test_reads_of_any_value :
    (stepped (about (.read 0x04) (stepped (about .rst State.reset)))).hRdata = Config.freeByte 0 ∧
    (stepped (about (.read 0x04) (stepped (about (.read 0x04) (stepped (about .rst State.reset)))))).hRdata =
      Config.freeByte 1 := ⟨rfl, rfl⟩
/-- The wait of R72 reads `STATUS`, and ends when `BUSY` reads 0. -/
theorem test_wait :
    (stepped (about .wait { State.reset with ok := true })).hRdata = 0x02 ∧
    (stepped (about .wait { State.reset with ok := true })).inputs = [] ∧
    (stepped (about .wait inReadByte)).hRdata = 0x01 ∧ (stepped (about .wait inReadByte)).inputs = [.wait] :=
  ⟨rfl, rfl, rfl, rfl⟩
/-- V69: a slot on a line that is low already. -/
theorem test_writeBit_on_low_line :
    (after .writeBit { State.reset with oe := true, arg0 := .held 0x01 }).trace = [.low, .wait 5, .rel, .wait (restTime true)] :=
  rfl

/-! The host's own questions: the fetched word runs as the first instruction after reset. -/

theorem test_fetch_runs_the_word :
    (stepped (State.reset.withFetchWord 8 0x01)).oe = true ∧
    (stepped (State.reset.withFetchWord 8 0x01)).inputs = [.wait] := by decide
theorem test_fetch_reserved_word : (stepped (State.reset.withFetchWord 8 0x7F)).ok = false := by decide

/-! For every statement with hypotheses, a state and operands that meet them, each clause and each boundary on its own. -/

theorem test_meets_EncodeInvertsDecode : decodeTableWord 8 0xFF = none ∧ decodeTableWord 8 0xF0 = some .searchRom := by decide
theorem test_meets_StepServesTheNextEvent :
    (about (.run 0x33) State.reset).inputs = .run 0x33 :: [] ∧ decodeByte 0x33 = .ok .readRom ∧
    decodeByte 0x00 = .error (.reserved 0x00) ∧ Idle (about (.run 0x00) State.reset) ∧
    (about .pause inReadByte).inputs = .pause :: [] ∧ State.reset.inputs = [] ∧
    (about .wait inReadByte).inputs = .wait :: [] ∧ ¬ Idle (about .wait inReadByte) ∧ Idle (about .wait State.reset) :=
  ⟨rfl, rfl, rfl, rfl, rfl, rfl, rfl, (busy_iff _).1 rfl, rfl⟩
theorem test_meets_RstRecoversTheBlock : (about .rst inReadByte).inputs = .rst :: [] ∧ ¬ Idle inReadByte :=
  ⟨rfl, (busy_iff _).1 rfl⟩
theorem test_meets_HostReadFollowsTheMap :
    (about (.read 0x10) State.reset).inputs = .read 0x10 :: [] ∧ State.reset.busy = false ∧ inReadByte.busy = true ∧
    (0x08 : Offset).toNat = 0x08 + ((0 : Fin 9) : Nat) ∧ (0x10 : Offset).toNat = 0x08 + ((8 : Fin 9) : Nat) ∧
    0x11 ≤ (0x11 : Offset).toNat ∧ 0x11 ≤ (0x1F : Offset).toNat ∧ ¬ (0x11 : Offset).toNat ≤ 0x10 := by decide
theorem test_meets_HostWriteFollowsTheMap :
    (about (.write 0x08 0x01) State.reset).inputs = .write 0x08 0x01 :: [] ∧
    (about (.write 0x08 0x01) State.reset).busy = false ∧ (about (.write 0x08 0x01) inReadByte).busy = true := by decide
theorem test_meets_CmdWriteIssuesOrDrops :
    (about (.write 0x00 0x43) State.reset).inputs = .write 0x00 0x43 :: [] ∧ State.reset.busy = false ∧
    decodeOpcode 0x43 = some .setResolution ∧ .setResolution ∈ sessionOperations ∧ decodeOpcode 0x30 = some .crcUpdate ∧
    .crcUpdate ∈ directOperations ∧ decodeOpcode 0x44 = none ∧ inReadByte.busy = true := by decide
/-- The edges of the ranges of R70. -/
theorem test_meets_ReservedOpcodeIsRefused_low :
    Reserved 0x00 ∧ Reserved 0x04 ∧ Reserved 0x0F ∧ Reserved 0x14 ∧ Reserved 0x1F ∧ Reserved 0x23 := by unfold Reserved; decide
theorem test_meets_ReservedOpcodeIsRefused_high :
    Reserved 0x2F ∧ Reserved 0x31 ∧ Reserved 0x3F ∧ Reserved 0x44 ∧ Reserved 0xFF ∧
    Idle (about (.write 0x00 0xFF) State.reset) := by unfold Reserved Idle; decide
theorem test_meets_ReservedOpcodeIsRefused_defined_low :
    ¬ Reserved 0x03 ∧ ¬ Reserved 0x10 ∧ ¬ Reserved 0x13 ∧ ¬ Reserved 0x20 := by unfold Reserved; decide
theorem test_meets_ReservedOpcodeIsRefused_defined_high :
    ¬ Reserved 0x22 ∧ ¬ Reserved 0x30 ∧ ¬ Reserved 0x40 ∧ ¬ Reserved 0x43 := by unfold Reserved; decide
theorem test_meets_BusyBlockDropsEveryInstruction : inReadByte.busy = true := rfl
theorem test_meets_SampleReadsTheLine : { State.reset with oe := true }.oe = true ∧ State.reset.oe = false := ⟨rfl, rfl⟩
theorem test_meets_WaitCountsDownMicroseconds :
    { inReadByte with todo := [.one (.wait 1), .one .succeed] }.busy = true ∧
    (tick^[2] { inReadByte with todo := [.one (.wait 1), .one .succeed] }).timer = 0 ∧
    (tick^[3] { inReadByte with todo := [.one (.wait 1), .one .succeed] }).todo = [.one .succeed] := ⟨rfl, rfl, rfl⟩
theorem test_meets_idle : Idle State.reset := rfl
theorem test_meets_SampleOperationReadsTheLevel :
    Idle (fed [true]) ∧ (fed [true]).oe = false ∧ (fed [true]).upcoming 1 = [true] ∧
    Idle { fed [true] with oe := true } ∧ { fed [true] with oe := true }.oe = true := ⟨rfl, rfl, rfl, rfl, rfl⟩
theorem test_meets_ReadBitReturnsTheSample : Idle (fed [false]) ∧ (fed [false]).upcoming 1 = [false] := ⟨rfl, rfl⟩
theorem test_meets_ReadByteReturnsTheSamples :
    Idle (fed (byteBits 0x28)) ∧ (fed (byteBits 0x28)).upcoming 8 = byteBits 0x28 := ⟨rfl, rfl⟩
theorem test_meets_ByteSurvivesTheWire :
    (fed [true, true, false, false, true, true, false, false]).upcoming 8 = sentBits (writeByteTrace 0x33) := by decide +kernel
theorem test_meets_ResetOperationReportsPresence : Idle (fed [true]) ∧ (fed [true]).upcoming 1 = [true] ∧
    (fed [false]).upcoming 1 = [false] := ⟨rfl, rfl, rfl⟩
theorem test_meets_AbsentDeviceEndsTheSession :
    .readTemperature ∈ sessionOperations ∧ .select ∈ sessionOperations ∧ (fed [true]).upcoming 1 = [true] := by decide
theorem test_meets_SelectSendsTheCommand :
    Idle { fed (selectAnswers romA) with arg1 := .held 0x28 } ∧
    { fed (selectAnswers romA) with arg1 := .held 0x28 }.upcoming 65 = selectAnswers romA ∧ RomOk romA ∧ romA[0] = 0x28 :=
  ⟨rfl, rfl, test_crc_images.1, rfl⟩
theorem test_meets_SelectAnyAcceptsEveryFamily :
    Idle (fed (selectAnswers romB)) ∧ (fed (selectAnswers romB)).upcoming 65 = selectAnswers romB ∧ RomOk romB :=
  ⟨rfl, rfl, test_crc_images.2.1⟩
theorem test_meets_SelectRejectsTheRomCode :
    Idle (fed (selectAnswers romBad)) ∧ (fed (selectAnswers romBad)).upcoming 65 = selectAnswers romBad ∧ ¬ RomOk romBad ∧
    RomOk romB ∧ romB[0] ≠ 0x28 := ⟨rfl, rfl, test_crc_images.2.2.2.1, test_crc_images.2.1, by decide⟩
theorem test_meets_CrcDetectsSingleBitErrors :
    residue ([0x28, 0x01] ++ 0x02 :: [0x03, 0x04, 0x05, 0x06, 0x9E]) = 0x00 ∧ residue ([] ++ 0x00 :: []) = 0x00 := by
  decide +kernel
theorem dsRomOk_romA : DsRomOk romA := ⟨test_crc_images.1, rfl⟩
theorem imageOk_sp85 : ImageOk sp85 := fun _ => test_crc_images.2.2.1
theorem imageOk_sp9 : ImageOk sp9 := fun _ => test_crc_images.2.2.2.2.2
theorem test_meets_ReadScratchpadFillsTheBuffer :
    Idle (fed (selectAnswers romA ++ bytesBits sp85.toList)) ∧
    (fed (selectAnswers romA ++ bytesBits sp85.toList)).upcoming 137 = selectAnswers romA ++ bytesBits sp85.toList ∧
    DsRomOk romA ∧ ImageOk sp85 := ⟨rfl, rfl, dsRomOk_romA, imageOk_sp85⟩
theorem test_meets_CorruptScratchpadFailsWhereValidated :
    Idle (fed (selectAnswers romA ++ bytesBits spBad.toList)) ∧
    (fed (selectAnswers romA ++ bytesBits spBad.toList)).upcoming 137 = selectAnswers romA ++ bytesBits spBad.toList ∧
    DsRomOk romA ∧ residue spBad.toList ≠ 0x00 := ⟨rfl, rfl, dsRomOk_romA, test_crc_images.2.2.2.2.1⟩
theorem test_meets_WriteScratchpadSendsThreeBytes :
    Idle (fed (selectAnswers romA)) ∧ (fed (selectAnswers romA)).upcoming 65 = selectAnswers romA ∧ DsRomOk romA :=
  ⟨rfl, rfl, dsRomOk_romA⟩
/-- One ROM code of another family, one with a bad CRC. -/
theorem test_meets_DsOperationsRejectTheRomCode :
    (fed (selectAnswers romB)).upcoming 65 = selectAnswers romB ∧ ¬ DsRomOk romB ∧
    (fed (selectAnswers romBad)).upcoming 65 = selectAnswers romBad ∧ ¬ DsRomOk romBad :=
  ⟨rfl, fun h => absurd h.2 (by decide), rfl, fun h => test_crc_images.2.2.2.1 h.1⟩

/-- The answers of program P2 (V45). -/
def p2 : List Bool :=
  selectAnswers romA ++ (List.replicate 2 false ++ true :: (selectAnswers romA ++ bytesBits sp85.toList))

/-- V51: the answers with a corrupt image after the poll. -/
theorem test_meets_CorruptScratchpadFailsWhereValidated_temperature :
    (fed (selectAnswers romA ++ (List.replicate 0 false ++ true :: (selectAnswers romA ++ bytesBits spBad.toList)))).upcoming
      65 = selectAnswers romA ∧
    (fed (selectAnswers romA ++ bytesBits spBad.toList)).upcoming 137 = selectAnswers romA ++ bytesBits spBad.toList :=
  ⟨rfl, rfl⟩
/-- V50, and a bad and a foreign ROM code in the second session. -/
theorem test_meets_ReadTemperatureAbortsAfterThePoll :
    (fed (selectAnswers romA ++ (List.replicate 0 false ++ true :: [true]))).upcoming 65 = selectAnswers romA ∧
    (fed (selectAnswers romA ++ (List.replicate 0 false ++ true :: [true]))).script.drop 65 =
      List.replicate 0 false ++ true :: [true] ∧ (fed [true]).upcoming 1 = [true] ∧
    (fed (selectAnswers romB)).upcoming (selectAnswers romB).length = selectAnswers romB := ⟨rfl, rfl, rfl, rfl⟩
theorem test_meets_SessionFails_noPresence : SessionFails [true] (resetTrace true) .noPresence := .inl ⟨rfl, rfl, rfl⟩
theorem test_meets_SessionFails_family : SessionFails (selectAnswers romB) (romTrace romB) .familyMismatch :=
  .inr ⟨romB, fun h => absurd h.2 (by decide), rfl, rfl, by rw [if_pos test_crc_images.2.1]⟩
theorem test_meets_SessionFails_romCrc : SessionFails (selectAnswers romBad) (romTrace romBad) .romCrc :=
  .inr ⟨romBad, fun h => test_crc_images.2.2.2.1 h.1, rfl, rfl, by rw [if_neg test_crc_images.2.2.2.1]⟩
theorem test_meets_SessionPassesItsPhases :
    { fed (selectAnswers romA) with arg1 := .held 0x28 }.operandB = Config.dsFamily ∧
    { fed (selectAnswers romA) with arg1 := .held 0x28 }.upcoming 65 = selectAnswers romA ∧
    (startReadScratchpad (fed (selectAnswers romA))).phase = .resetPresence := ⟨rfl, rfl, rfl⟩
theorem test_meets_ReadTemperatureReturnsTheReading :
    Idle (fed p2) ∧ (fed p2).upcoming 65 = selectAnswers romA ∧
    (fed p2).script.drop 65 = List.replicate 2 false ++ true :: (selectAnswers romA ++ bytesBits sp85.toList) ∧
    { fed p2 with script := selectAnswers romA ++ bytesBits sp85.toList }.upcoming 137 =
      selectAnswers romA ++ bytesBits sp85.toList := ⟨rfl, rfl, rfl, rfl⟩
/-- V49, and the poll not yet begun. -/
theorem test_meets_UnfinishedConversionKeepsTheBlockBusy :
    (fed (selectAnswers romA ++ List.replicate 3 false)).upcoming 65 = selectAnswers romA ∧
    (fed (selectAnswers romA ++ List.replicate 3 false)).script.drop 65 = List.replicate 3 false ∧
    (fed (selectAnswers romA)).script.drop 65 = List.replicate 0 false := ⟨rfl, rfl, rfl⟩
theorem test_meets_PollEndsOnlyAtAOne :
    { inReadByte with todo := [.poll, .one .succeed] }.busy = true ∧ inReadByte.upcoming 0 = List.replicate 0 false ∧
    { inReadByte with script := [false, true] }.upcoming 1 = List.replicate 1 false ∧
    { inReadByte with script := [true] }.upcoming 1 = [true] := ⟨rfl, rfl, rfl, rfl⟩
/-- V52: the fast path. -/
theorem test_meets_SetResolutionFastPath :
    (sp85[4] : Byte).extractLsb' 5 2 = { State.reset with arg0 := .held 0x03 }.operandA.extractLsb' 0 2 := by decide
/-- V53 and V54: the answers of both ways. -/
theorem test_meets_SetResolutionWritesTheField :
    (sp85[4] : Byte).extractLsb' 5 2 ≠ State.reset.operandA.extractLsb' 0 2 ∧ State.reset.operandB.getLsbD 0 = false ∧
    (fed (selectAnswers romA ++ bytesBits sp85.toList ++ selectAnswers romA)).upcoming 202 =
      selectAnswers romA ++ bytesBits sp85.toList ++ selectAnswers romA ∧
    { State.reset with arg1 := .held 0x01 }.operandB.getLsbD 0 = true ∧
    (fed (selectAnswers romA ++ bytesBits sp85.toList ++ selectAnswers romA ++ selectAnswers romA)).upcoming 267 =
      selectAnswers romA ++ bytesBits sp85.toList ++ selectAnswers romA ++ selectAnswers romA :=
  ⟨by decide, rfl, by decide +kernel, rfl, by decide +kernel⟩
/-- V55 and V56, and a ROM code of another family in the write session. -/
theorem test_meets_LaterSessionsAbortEagerly :
    (fed (selectAnswers romA ++ bytesBits sp85.toList ++ [true])).upcoming 138 =
      selectAnswers romA ++ bytesBits sp85.toList ++ [true] ∧
    (fed (selectAnswers romA ++ bytesBits sp85.toList ++ selectAnswers romB)).upcoming 202 =
      selectAnswers romA ++ bytesBits sp85.toList ++ selectAnswers romB ∧
    (fed (selectAnswers romA ++ bytesBits sp85.toList ++ selectAnswers romA ++ [true])).upcoming 203 =
      selectAnswers romA ++ bytesBits sp85.toList ++ selectAnswers romA ++ [true] := by decide +kernel
/-- P3: a call that succeeds on the fast path, with the configuration 0x1F read again by the next. -/
theorem test_meets_SetResolutionIsIdempotent :
    ∃ s', exec .setResolution (fed (selectAnswers romA ++ bytesBits sp9.toList)) = .next s' ∧ s'.ok = true ∧
      s'.buf[4] = .held sp9[4] := by
  have hi : Idle (fed (selectAnswers romA ++ bytesBits sp9.toList)) := rfl
  have hu : (fed (selectAnswers romA ++ bytesBits sp9.toList)).upcoming 137 = selectAnswers romA ++ bytesBits sp9.toList := by
    decide +kernel
  have key : ∀ (z : State) (p : List Act), z.busy = true → z.aL = 0x00 →
      z.upcoming 137 = selectAnswers romA ++ bytesBits sp9.toList →
      runActs (readScratchpad ++ .succeedIfSame :: p) z = succeed (withImage romA sp9 z) := by
    intro z p hb ha hz
    rw [runActs_then _ _ _ _ hb (runActs_readScratchpad_ok romA sp9 z hb hz dsRomOk_romA imageOk_sp9) rfl]
    refine runActs_sameField _ _ ?_
    rw [show (withImage romA sp9 z).aL = 0x00 from ha, image_of_held (s := withImage romA sp9 z) rfl]
    decide
  refine ⟨_, exec_setResolution _ hi, ?_⟩
  generalize hf : fed (selectAnswers romA ++ bytesBits sp9.toList) = f at hu
  have ha : f.operandA = 0x00 := by subst hf; rfl
  rw [ran, key (issued _ _ _ f) _ (issued_busy _ _ _ _ (by decide)) ha hu]
  exact ⟨rfl, heldImage_get sp9 4 (by decide)⟩
theorem test_meets_WireCodesGoOutAsBytes : Idle State.reset ∧ encode .skipRom = 0xCC := ⟨rfl, rfl⟩
theorem test_failure_leaves_any_value :
    (fail .romCrc { State.reset with opL := 0x40 }).buf = Vector.replicate 9 .anyValue ∧
    (fail .romCrc { State.reset with opL := 0x41 }).buf = State.reset.buf := by decide
theorem test_meets_CausesArisePerOperation :
    (after .reset (fed [true])).cause = some .noPresence ∧
    (after .select (fed (selectAnswers romBad))).cause = some .romCrc ∧
    (after .select (fed (selectAnswers romA))).cause = some .familyMismatch ∧
    (checkScratchpad true { inReadByte with buf := heldImage spBad }).cause = some .scratchpadCrc ∧
    (after .reset (fed [false])).phase = .idle := by decide +kernel
/-- V13: a sample of the line that `DRIVE_LOW` left low; a CRC update there (R114). -/
theorem test_meets_OperationsReleaseTheLine_kept :
    exec .sample { fed [] with oe := true } = .next (after .sample { fed [] with oe := true }) ∧
    (after .sample { fed [] with oe := true }).oe = true ∧ (after .sample (fed [true])).oe = false ∧
    (after .crcUpdate { fed [] with oe := true }).oe = true := ⟨rfl, rfl, rfl, rfl⟩
theorem test_meets_OperationsReleaseTheLine :
    exec .writeBit { State.reset with oe := true } = .next (after .writeBit { State.reset with oe := true }) ∧
    Instr.writeBit ≠ .driveLow ∧ Instr.writeBit ≠ .sample ∧ Instr.writeBit ≠ .crcUpdate := ⟨rfl, by decide⟩
theorem test_meets_OperationsOnlyAddToTheTrace : exec .crcUpdate State.reset = .next (after .crcUpdate State.reset) := rfl
theorem test_meets_NoStateSurvivesAnOperation :
    SameInputs .select (fed (selectAnswers romA))
      { fed (selectAnswers romA) with res0 := .held 0x55, ok := true, sr := 0xAA, rom := romB, buf := heldImage sp85 } :=
  ⟨rfl, rfl, rfl, fun _ => rfl, fun _ => rfl, fun h => absurd h (by decide), rfl, rfl⟩
theorem test_meets_AssemblerLinesRun :
    (AsmLine.op .reset []).wellFormed = true ∧ lineEvents (.op .reset []) = [.write 0x00 0x20, .wait] ∧
    lineEvents (.op .writeScratchpad []) = [.write 0x00 0x41, .wait] ∧
    lineEvents (.op .skipRom []) = [.write 0x02 0xCC, .write 0x00 0x12, .wait] ∧
    lineEvents (.op .selectAny [0x44]) = [.write 0x02 0x44, .write 0x00 0x22, .wait] ∧
    lineEvents (.op .setResolution [0x03, 0x01]) = [.write 0x02 0x03, .write 0x03 0x01, .write 0x00 0x43, .wait] ∧
    lineEvents (.setBuf 8 0x01) = [.write 0x10 0x01] := by decide
theorem test_meets_StepsKeepTheInvariant : Inv State.reset ∧ step State.reset = .next State.reset :=
  ⟨⟨fun _ => rfl, fun h => absurd rfl h, by decide, by decide, rfl, rfl⟩, rfl⟩

end Sys2Proof.Tests
end

/-!
PROOFS. What a host read, a failure and a step come to, and how long the traces last: 00_scope.md rules R5, R8, R9, R180,
20_memory.md rules R41, R44, R52, 60_exceptions.md rule R142.
-/

namespace Sys2Proof.Laws.EncodeDecode

/-- The family holds of every instruction. -/
theorem statement_of_instr (i : Instr) : Statement i := by
  cases i
  exacts [driveLow, release, sample, writeBit, readBit, writeByte, readByte, reset, select, selectAny, crcUpdate,
    readScratchpad, writeScratchpad, readTemperature, setResolution, searchRom, readRom, matchRom, skipRom, alarmSearch,
    convertT, writeScratchpadCmd, readScratchpadCmd, copyScratchpad, recallEeprom, readPowerSupply]

end Sys2Proof.Laws.EncodeDecode

namespace Sys2Proof.Machine

/-! The address map (R52) and the read of a register (R41, R44). -/

/-- Offset 0x08 + i names `BUF[i]` (R52). -/
theorem regAt_buf (off : Offset) (i : Fin 9) (h : off.toNat = 0x08 + i) : regAt off = .buf i := by
  have hoff : off = BitVec.ofNat 5 (0x08 + i) := by rw [← h, BitVec.ofNat_toNat, BitVec.setWidth_eq]
  subst hoff
  revert i
  decide

/-- The offsets without a register (R17, R52). -/
theorem regAt_none (off : Offset) (h : off = 0x06 ∨ off = 0x07 ∨ 0x11 ≤ off.toNat) : regAt off = .none := by
  revert off
  decide

/-- The offsets of `RES0`, `RES1` and `BUF` (R44, R52). -/
theorem regAt_isResult (off : Offset) (h : off = 0x04 ∨ off = 0x05 ∨ (0x08 ≤ off.toNat ∧ off.toNat ≤ 0x10)) :
    (regAt off).isResult = true := by
  revert off
  decide

/-- While the block is idle a register reads as what it holds (R41). -/
theorem content_of_idle (r : Reg) (s : State) (h : s.busy = false) : r.content s = r.stored s := by
  simp [Reg.content, h]

/-- A register that is no result reads as what it holds at any time (R41, R44). -/
theorem content_of_not_result (r : Reg) (s : State) (h : r.isResult = false) : r.content s = r.stored s := by
  simp [Reg.content, h]

/-- A result register reads as any value while the block is busy (R44). -/
theorem content_of_busy (r : Reg) (s : State) (hb : s.busy = true) (h : r.isResult = true) : r.content s = .anyValue := by
  simp [Reg.content, hb, h]

/-- A host read changes the read port and the count of the free bytes only (R41). -/
theorem hostRead_frame (off : Offset) (s : State) :
    hostRead off s = { s with hRdata := (hostRead off s).hRdata, picks := (hostRead off s).picks } := rfl

/-- The byte a host read of the register `r` returns, and the free bytes drawn after it (R9, R41). -/
theorem hostRead_of_content {off : Offset} {r : Reg} {s : State} {c : Content} (hr : regAt off = r)
    (hc : r.content s = c) : (hostRead off s).hRdata = c.read s.picks ∧ (hostRead off s).picks = s.picks + c.drawn := by
  subst hr hc
  exact ⟨rfl, rfl⟩

/-- A read of `STATUS` puts it in the read port and draws nothing (R16, R41). -/
theorem hostRead_status (s : State) : hostRead 0x01 s = { s with hRdata := s.status } := by
  simp [hostRead, regAt, Reg.content, Reg.isResult, Reg.stored, Content.read, Content.drawn]

/-! One step, by the host's next event (R8). -/

/-- A program word that is an instruction (R72). -/
theorem step_run {s : State} {w : Byte} {i : Instr} {rest : List HostEvent} (h : s.inputs = .run w :: rest)
    (hw : decodeByte w = .ok i) : step s = exec i { s with inputs := .wait :: rest } := by
  simp [step, fetch, h, hw]

/-- A program word that is none (R70). -/
theorem step_run_reserved {s : State} {w : Byte} {e : DecodeError} {rest : List HostEvent}
    (h : s.inputs = .run w :: rest) (hw : decodeByte w = .error e) :
    step s = .next (refuseWord { s with inputs := .wait :: rest }) := by
  simp [step, fetch, h, hw]

theorem step_read {s : State} {off : Offset} {rest : List HostEvent} (h : s.inputs = .read off :: rest) :
    step s = .next (hostRead off { s with inputs := rest }) := by simp [step, fetch, hostStep, h]

theorem step_write {s : State} {off : Offset} {v : Byte} {rest : List HostEvent} (h : s.inputs = .write off v :: rest) :
    step s = .next (hostWrite off v { s with inputs := rest }) := by simp [step, fetch, hostStep, h]

theorem step_rst {s : State} {rest : List HostEvent} (h : s.inputs = .rst :: rest) :
    step s = .next (applyReset { s with inputs := rest }) := by simp [step, fetch, hostStep, h]

theorem step_wait {s : State} {rest : List HostEvent} (h : s.inputs = .wait :: rest) :
    step s = .next (waitStep rest s) := by simp [step, fetch, hostStep, h]

theorem step_pause {s : State} {rest : List HostEvent} (h : s.inputs = .pause :: rest) :
    step s = .next (tick { s with inputs := rest }) := by simp [step, fetch, hostStep, h]

theorem step_nil {s : State} (h : s.inputs = []) : step s = .next (tick s) := by simp [step, fetch, hostStep, h]

/-- A word that is no instruction is refused while the block is idle (R70). -/
theorem refuseWord_of_idle (s : State) (h : s.busy = false) : refuseWord s = { s with ok := false } := by
  rw [refuseWord, h, if_neg Bool.false_ne_true]
  rfl

/-- The wait of an idle block is over (R72). -/
theorem waitStep_of_idle (rest : List HostEvent) (s : State) (h : s.busy = false) :
    waitStep rest s = { s with inputs := rest, hRdata := s.status } := by
  rw [waitStep, h, if_neg Bool.false_ne_true, hostRead_status]

/-- The wait of a busy block lets the controller take a step (R72). -/
theorem waitStep_of_busy (rest : List HostEvent) (s : State) (h : s.busy = true) :
    waitStep rest s = tick { s with hRdata := s.status } := by
  rw [waitStep, h, if_pos rfl, hostRead_status]

/-- The decoder reads every instruction from its own word (R62, R68). -/
theorem decodeByte_encode (i : Instr) : decodeByte (encode i) = .ok i := (Laws.EncodeDecode.statement_of_instr i).2.1

/-- The word of an instruction as the host's next program word. -/
theorem withFetchWord_encode (i : Instr) (s : State) :
    s.withFetchWord 8 (encode i).toNat = { s with inputs := .run (encode i) :: s.inputs } := by
  rw [State.withFetchWord, BitVec.ofNat_toNat, BitVec.setWidth_eq]

/-! A failure, as one update of the state (R142). -/

theorem releaseIfLow_eq (s : State) :
    releaseIfLow s = { s with oe := false, log := if s.oe then .rel :: s.log else s.log } := by
  cases s with | mk oe => cases oe <;> rfl

theorem scrapResults_eq (s : State) :
    scrapResults s = { s with
      res0 := if s.opL = encode .readTemperature then .anyValue else s.res0
      res1 := if s.opL = encode .readTemperature then .anyValue else s.res1
      buf := if s.opL = encode .readScratchpad ∨ s.opL = encode .readTemperature ∨ s.opL = encode .setResolution
        then Vector.replicate 9 .anyValue else s.buf } := by
  by_cases ht : s.opL = encode .readTemperature
  · simp [scrapResults, ht, scrapRes, scrapBuf]
  · by_cases hb : s.opL = encode .readScratchpad ∨ s.opL = encode .setResolution <;>
      simp [scrapResults, ht, hb, scrapBuf]

theorem fail_eq (c : Cause) (s : State) :
    fail c s = { s with
      oe := false, ok := false, phase := .idle, cause := some c, log := if s.oe then .rel :: s.log else s.log
      res0 := if s.opL = 0x42 then .anyValue else s.res0
      res1 := if s.opL = 0x42 then .anyValue else s.res1
      buf := if s.opL = 0x40 ∨ s.opL = 0x42 ∨ s.opL = 0x43 then Vector.replicate 9 .anyValue else s.buf } := by
  rw [fail, scrapResults_eq, releaseIfLow_eq]
  rfl

/-! Durations (R180): the waits of a trace add up. -/

@[simp] theorem traceTime_append (xs ys : List LineAction) : traceTime (xs ++ ys) = traceTime xs + traceTime ys := by
  induction xs with
  | nil => simp [traceTime]
  | cons a xs ih => cases a <;> simp [traceTime, ih, Nat.add_assoc]

/-- Pieces that last equally long. -/
theorem traceTime_flatMap {α : Type} (f : α → List LineAction) (d : Nat) (h : ∀ x, traceTime (f x) = d) (xs : List α) :
    traceTime (xs.flatMap f) = xs.length * d := by
  induction xs with
  | nil => simp [traceTime]
  | cons x xs ih => rw [List.flatMap_cons, traceTime_append, h, ih, List.length_cons, Nat.succ_mul, Nat.add_comm]

theorem lowTime_le_tSlot (v : Bool) : lowTime v ≤ Config.tSlot := by
  cases v <;> simp [lowTime, Config.tW1l, Config.tW0l, Config.tSlot]

@[simp] theorem traceTime_waitTrace (n : Nat) : traceTime (waitTrace n) = n := by
  unfold waitTrace
  split <;> simp_all [traceTime]

/-- A write slot (R90). -/
theorem traceTime_writeSlotTrace (v : Bool) : traceTime (writeSlotTrace v) = Config.tSlot + Config.tRec := by
  have h := lowTime_le_tSlot v
  simp only [writeSlotTrace, traceTime, restTime]
  omega

/-- A read slot (R91). -/
theorem traceTime_readSlotTrace (b : Bool) : traceTime (readSlotTrace b) = Config.tSlot + Config.tRec := by
  simp only [readSlotTrace, traceTime, readRestTime, Config.tRl, Config.tRds, Config.tSlot]
  omega

/-- A byte written is eight slots (R92). -/
theorem traceTime_writeByteTrace (x : Byte) : traceTime (writeByteTrace x) = 8 * (Config.tSlot + Config.tRec) :=
  traceTime_flatMap writeSlotTrace _ traceTime_writeSlotTrace (byteBits x)

/-- A byte read is eight slots (R93). -/
theorem traceTime_readByteTrace (x : Byte) : traceTime (readByteTrace x) = 8 * (Config.tSlot + Config.tRec) :=
  traceTime_flatMap readSlotTrace _ traceTime_readSlotTrace (byteBits x)

/-- Bytes read one after the other. -/
theorem traceTime_readBytes {n : Nat} (v : Vector Byte n) :
    traceTime (v.toList.flatMap readByteTrace) = n * (8 * (Config.tSlot + Config.tRec)) := by
  rw [traceTime_flatMap readByteTrace _ traceTime_readByteTrace, Vector.length_toList]

/-- A reset pulse and its recovery, which holds the presence sample (R100). -/
theorem traceTime_resetTrace (b : Bool) : traceTime (resetTrace b) = Config.tRstl + Config.tRsth := by
  have h : Config.tPds ≤ Config.tRsth := by unfold Config.tRsth; omega
  simp only [resetTrace, traceTime_append, traceTime_waitTrace, traceTime]
  omega

/-- A selection up to its ROM code is a reset and nine bytes (R102). -/
theorem traceTime_romTrace (rom : Vector Byte 8) :
    traceTime (romTrace rom) = Config.tRstl + Config.tRsth + 72 * (Config.tSlot + Config.tRec) := by
  rw [romTrace, traceTime_append, traceTime_append, traceTime_resetTrace, traceTime_writeByteTrace, traceTime_readBytes]
  omega

/-- A selection that succeeds is one byte longer (R102). -/
theorem traceTime_selectTrace (rom : Vector Byte 8) (c : Byte) :
    traceTime (selectTrace rom c) = Config.tRstl + Config.tRsth + 80 * (Config.tSlot + Config.tRec) := by
  rw [selectTrace, traceTime_append, traceTime_romTrace, traceTime_writeByteTrace]
  omega

/-- A poll lasts its slots (R123). -/
theorem traceTime_pollTrace (k : Nat) : traceTime (pollTrace k) = k * (Config.tSlot + Config.tRec) := by
  rw [pollTrace, traceTime_flatMap readSlotTrace _ traceTime_readSlotTrace, List.length_replicate]

/-- A scratchpad read is nine bytes more than its selection (R121). -/
theorem traceTime_readScratchpadTrace (rom : Vector Byte 8) (img : Vector Byte 9) :
    traceTime (readScratchpadTrace rom img) = Config.tRstl + Config.tRsth + 152 * (Config.tSlot + Config.tRec) := by
  rw [readScratchpadTrace, traceTime_append, traceTime_selectTrace, traceTime_readBytes]
  omega

/-- A scratchpad write is three bytes more than its selection (R122). -/
theorem traceTime_writeScratchpadTrace (rom : Vector Byte 8) (h l c : Byte) :
    traceTime (writeScratchpadTrace rom h l c) = Config.tRstl + Config.tRsth + 104 * (Config.tSlot + Config.tRec) := by
  rw [writeScratchpadTrace, traceTime_append, traceTime_append, traceTime_append, traceTime_selectTrace,
    traceTime_writeByteTrace, traceTime_writeByteTrace, traceTime_writeByteTrace]
  omega

/-! The obligations. -/

/-- Settles O10: the read takes what the register at the offset reads as, and each clause says which register that is. -/
theorem hostReadFollowsTheMap : Obligations.HostReadFollowsTheMap := by
  intro s off rest h
  refine ⟨hostRead off { s with inputs := rest }, step_read h, hostRead_frame off { s with inputs := rest },
    ?_, ?_, ?_, ?_, fun hb => ⟨?_, ?_, fun i hi => ?_⟩, fun hb hr => ?_, fun hn => ?_⟩
  · rintro rfl; exact hostRead_of_content (r := .cmd) rfl (content_of_not_result _ _ rfl)
  · rintro rfl; exact hostRead_of_content (r := .status) rfl (content_of_not_result _ _ rfl)
  · rintro rfl; exact hostRead_of_content (r := .arg0) rfl (content_of_not_result _ _ rfl)
  · rintro rfl; exact hostRead_of_content (r := .arg1) rfl (content_of_not_result _ _ rfl)
  · rintro rfl; exact hostRead_of_content (r := .res0) rfl (content_of_idle _ _ hb)
  · rintro rfl; exact hostRead_of_content (r := .res1) rfl (content_of_idle _ _ hb)
  · exact hostRead_of_content (regAt_buf off i hi) (content_of_idle _ _ hb)
  · exact hostRead_of_content rfl (content_of_busy _ { s with inputs := rest } hb (regAt_isResult off hr))
  · exact hostRead_of_content (regAt_none off hn) (content_of_not_result _ _ rfl)

/-- Settles O51: `fail` is one update of the state. -/
theorem failureKeepsTheOtherRegisters : Obligations.FailureKeepsTheOtherRegisters :=
  fun c s => ⟨fail_busy c s, fail_eq c s⟩

/-- Settles O57: each trace is made of slots of one length, and a reset. -/
theorem durationsAreTheSumOfTheWaits : Obligations.DurationsAreTheSumOfTheWaits :=
  ⟨traceTime_writeSlotTrace, traceTime_readSlotTrace, traceTime_writeByteTrace, traceTime_readByteTrace,
    traceTime_resetTrace, traceTime_romTrace, traceTime_selectTrace, traceTime_pollTrace, traceTime_readScratchpadTrace,
    traceTime_writeScratchpadTrace⟩

/-- Settles O5: one clause for each event at the head of the host's list. -/
theorem stepServesTheNextEvent : Obligations.StepServesTheNextEvent := by
  intro s rest
  refine ⟨fun i => ?_, fun w i h hw => step_run h hw, fun w e h hw hi => ?_, fun h hi => ?_, fun h hi => ?_,
    fun h => step_pause h, fun h => step_nil h, fun h hi => ?_⟩
  · rw [withFetchWord_encode]
    exact step_run rfl (decodeByte_encode i)
  · rw [step_run_reserved h hw, refuseWord_of_idle { s with inputs := .wait :: rest } ((not_busy_iff s).2 hi)]
  · rw [step_wait h, waitStep_of_idle rest s ((not_busy_iff s).2 hi)]
  · rw [step_wait h, waitStep_of_busy rest s ((busy_iff s).2 hi)]
  · rw [step_nil h, tick_idle s ((not_busy_iff s).2 hi)]

end Sys2Proof.Machine


/-!
PROOFS. The program of every instruction, its meaning as a run of that program, what transfers are made of, and
the rule of a run: what every micro-action keeps holds at its end (20_memory.md rule R43, 30_encoding.md rule R72).
-/

namespace Sys2Proof.Machine

/-! The program of every instruction, and its meaning as a run of that program (R43, R72). -/

/-- The program an instruction issues. -/
def programOf : Instr → List Micro
  | .driveLow => straight [.driveLow, .succeed]
  | .release => straight [.release, .succeed]
  | .sample => straight [.sample, .resultBit, .succeed]
  | .writeBit => straight ([.bitFromA] ++ writeSlot ++ [.succeed])
  | .readBit => straight (readSlot ++ [.resultBit, .succeed])
  | .readByte => straight (receiveByte ++ [.resultByte, .succeed])
  | .reset => straight (busReset ++ [.checkPresence, .succeed])
  | .select => straight (select .argA .argB false ++ [.succeed])
  | .selectAny => straight (select .argA (.lit 0x00) true ++ [.succeed])
  | .crcUpdate => straight [.resultCrc, .succeed]
  | .readScratchpad => straight (readScratchpad ++ [.succeed])
  | .writeScratchpad => straight (writeScratchpad ++ [.succeed])
  | .readTemperature => straight (selectDs .convertT ++ [.enter .dataTransfer]) ++ .poll ::
      straight (readScratchpad ++ [.resultTemperature, .succeed])
  | .setResolution => straight (readScratchpad ++ [.succeedIfSame, .setConfig] ++ writeScratchpad
      ++ [.succeedUnlessPersist] ++ selectDs .copyScratchpad ++ [.succeed])
  | .writeByte | .searchRom | .readRom | .matchRom | .skipRom | .alarmSearch | .convertT | .writeScratchpadCmd
  | .readScratchpadCmd | .copyScratchpad | .recallEeprom | .readPowerSupply => straight (sendByte .argA ++ [.succeed])

/-- The state in which an instruction is issued: a wire code is written to `ARG0` first (R72). -/
def prepared (i : Instr) (s : State) : State :=
  { s with arg0 := if i.form = .wire then .held (encode i) else s.arg0 }

theorem prepared_of_not_wire {i : Instr} (hi : i.form ≠ .wire) (s : State) : prepared i s = s := by
  rw [prepared, if_neg hi]

theorem prepared_of_wire {i : Instr} (hi : i.form = .wire) (s : State) :
    prepared i s = { s with arg0 := .held (encode i) } := by
  rw [prepared, if_pos hi]

/-- Every instruction is the issue of its program; a wire code writes `ARG0` first (R43, R72). -/
theorem startOf_eq (i : Instr) : ∃ opcode first, first ≠ .idle ∧ ∀ s, startOf i s =
    issue opcode first (programOf i) (if i.form = .wire then writeRegister 0x02 (encode i) s else s) := by
  cases i
  case reset | select | selectAny | readScratchpad | writeScratchpad | readTemperature | setResolution =>
    exact ⟨_, .resetPresence, by simp, fun _ => rfl⟩
  all_goals exact ⟨_, .direct, by simp, fun _ => rfl⟩

/-- What a meaning comes to in `Idle`: the program run from the state in which it was issued. -/
theorem exec_of_idle (i : Instr) : ∃ opcode first, first ≠ .idle ∧ ∀ s, Idle s →
    exec i s = .next (run (programOf i) (issued opcode first (programOf i) (prepared i s))) := by
  obtain ⟨opcode, first, hf, he⟩ := startOf_eq i
  refine ⟨opcode, first, hf, fun s h => ?_⟩
  have hb := (not_busy_iff s).2 h
  have hp : (if i.form = .wire then writeRegister 0x02 (encode i) s else s) = prepared i s := by
    by_cases hi : i.form = .wire
    · rw [if_pos hi, writeRegister_arg0 _ _ hb, prepared_of_wire hi]
    · rw [if_neg hi, prepared_of_not_wire hi]
  rw [exec_eq, operate, hb, if_neg Bool.false_ne_true, he, hp, issue_of_idle _ _ _ (prepared i s) h]
  rfl

/-! What slots and transfers are made of (R90 to R93). -/

/-- The micro-actions of slots and transfers: none enters a phase, checks anything or ends the operation. -/
def Act.isTransfer : Act → Bool
  | .driveLow | .release | .sample | .wait _ | .holdLow | .restOfSlot | .bitFromSr | .loadByte _ | .clearByte | .shiftOut
  | .shiftIn | .transfer _ | .byteDone | .storeRom _ | .storeBuf _ => true
  | _ => false

theorem all_of_isTransfer {f : Act → Bool} (hf : ∀ a : Act, a.isTransfer = true → f a = true) {p : List Act}
    (hp : p.all Act.isTransfer = true) : p.all f = true :=
  List.all_eq_true.2 fun a ha => hf a (List.all_eq_true.1 hp a ha)

theorem all_repeatActs {f : Act → Bool} {p : List Act} (hp : p.all f = true) (n : Nat) : (repeatActs n p).all f = true := by
  induction n with
  | zero => rfl
  | succ n ih => rw [repeatActs, List.all_append, hp, ih]; rfl

theorem isTransfer_writeByte (x : Src) : (writeByte x).all Act.isTransfer = true := by
  rw [writeByte, List.all_cons, all_repeatActs (by rfl)]
  rfl

theorem isTransfer_readByte : readByte.all Act.isTransfer = true := by
  rw [readByte, List.all_cons, all_repeatActs (by rfl)]
  rfl

theorem isTransfer_sendByte (x : Src) : (sendByte x).all Act.isTransfer = true := by
  rw [sendByte, List.all_cons, List.all_append, isTransfer_writeByte]
  rfl

theorem isTransfer_receiveByte : receiveByte.all Act.isTransfer = true := by
  rw [receiveByte, List.all_cons, List.all_append, isTransfer_readByte]
  rfl

theorem isTransfer_readInto {stores : List Act} (h : stores.all Act.isTransfer = true) :
    (readInto stores).all Act.isTransfer = true := by
  rw [readInto, List.all_flatMap]
  refine List.all_eq_true.2 fun st hst => ?_
  rw [List.all_append, isTransfer_readByte, List.all_cons, List.all_eq_true.1 h st hst]
  rfl

theorem isTransfer_readRomCode : readRomCode.all Act.isTransfer = true := by
  rw [readRomCode, List.all_cons, isTransfer_readInto (by rfl)]
  rfl

theorem isTransfer_readImage : readImage.all Act.isTransfer = true := by
  rw [readImage, List.all_cons, isTransfer_readInto (by rfl)]
  rfl

theorem isTransfer_writeImage : writeImage.all Act.isTransfer = true := by
  rw [writeImage, List.all_cons, List.all_flatMap]
  refine List.all_eq_true.2 fun x _ => ?_
  rw [List.all_append, isTransfer_writeByte]
  rfl

/-! A property that every micro-action keeps holds at the end of a run. -/

/-- For a straight program. -/
theorem runActs_keeps {I : State → Prop} (p : List Act)
    (hact : ∀ a ∈ p, ∀ s, s.busy = true → I s → I (act a s)) (s : State) (hb : s.busy = true) (h : I s) :
    I (runActs p s) := by
  induction p generalizing s with
  | nil => exact h
  | cons a p ih =>
    have ha := hact a (by simp) s hb h
    rw [runActs]
    split
    next hb' => exact ih (fun a' ha' => hact a' (by simp [ha'])) _ hb' ha
    next => exact ha

/-- For the poll, which leaves the block busy (R91, R123). -/
theorem pollLoop_keeps {I : State → Prop} (hslot : ∀ s, s.busy = true → I s → I (runActs readSlot s))
    (answers : List Bool) (s : State) (hb : s.busy = true) (h : I s) :
    (pollLoop answers s).1.busy = true ∧ I (pollLoop answers s).1 := by
  induction answers generalizing s with
  | nil => exact ⟨hb, h⟩
  | cons b more ih =>
    have hb' : (runActs readSlot s).busy = true := by rw [runActs_readSlot s hb]; exact hb
    rw [pollLoop]
    split
    · exact ⟨hb', hslot s hb h⟩
    · exact ih _ hb' (hslot s hb h)

/-- For any program, if the property does not speak of what is still to do. -/
theorem run_keeps {I : State → Prop} (htodo : ∀ s m, I s → I { s with todo := m })
    (hslot : ∀ s, s.busy = true → I s → I (runActs readSlot s)) (m : List Micro)
    (hact : ∀ a, .one a ∈ m → ∀ s, s.busy = true → I s → I (act a s)) (s : State) (hb : s.busy = true) (h : I s) :
    I (run m s) := by
  have hpoll : ∀ rest : List Micro, (∀ t : State, t.busy = true → I t → I (run rest t)) →
      ∀ t : State, t.busy = true → I t → I (run (.poll :: rest) t) := by
    intro rest ih t hb h
    obtain ⟨hb', h'⟩ := pollLoop_keeps hslot t.script t hb h
    rw [run]
    dsimp only
    split
    · exact ih _ hb' h'
    · exact htodo _ _ h'
  induction m generalizing s with
  | nil => exact htodo s [] h
  | cons x rest ih =>
    have ih' := ih (fun a ha => hact a (by simp [ha]))
    cases x with
    | one a =>
      have ha := hact a (by simp) s hb h
      rw [run]
      split
      next hb' => exact ih' _ hb' ha
      next => exact htodo _ _ ha
    | poll => exact hpoll rest ih' s hb h
    | pollTest =>
      by_cases hbit : s.bit = true
      · rw [run, if_pos hbit]; exact ih' s hb h
      · rw [run, if_neg hbit]; exact hpoll rest ih' s hb h

end Sys2Proof.Machine

/-!
PROOFS. The invariant of the machine, kept by every step (10_state.md rules R13, R18, R20; 40_bus_primitives.md rules
R80, R82; 60_exceptions.md rule R148).
-/

namespace Sys2Proof.Machine

/-! What every run keeps: the part of the invariant that does not speak of the program (R13, R18, R80, R82). -/

/-- The counters are in their ranges, and the trace is canonical and agrees with the drive state. -/
structure InRange (s : State) : Prop where
  bitcnt_le : s.bitcnt ≤ 8
  bytecnt_le : s.bytecnt ≤ 9
  canonical : canonicalLog s.log = true
  drive : driveAfter s.log = some s.oe

theorem Inv.inRange {s : State} (h : Inv s) : InRange s := ⟨h.bitcnt_le, h.bytecnt_le, h.canonical, h.drive⟩

/-- An idle block with nothing left to do meets the invariant if the rest is in range. -/
theorem InRange.inv_of_idle {s : State} (h : InRange s) (hi : s.busy = false) (ht : s.todo = []) : Inv s :=
  ⟨fun _ => ht, fun hn => absurd ((not_busy_iff s).1 hi) hn, h.bitcnt_le, h.bytecnt_le, h.canonical, h.drive⟩

/-- A busy block whose program ends in `succeed()` meets the invariant if the rest is in range. -/
theorem InRange.inv_of_busy {s : State} (h : InRange s) (hb : s.busy = true)
    (ht : s.todo.getLast? = some (.one .succeed)) : Inv s :=
  ⟨fun hi => absurd hi ((busy_iff s).1 hb), fun _ => ht, h.bitcnt_le, h.bytecnt_le, h.canonical, h.drive⟩

/-- The program of a busy block ends in `succeed()`. -/
theorem Inv.todo_of_busy {s : State} (h : Inv s) (hb : s.busy = true) : s.todo.getLast? = some (.one .succeed) :=
  h.busy_ends ((busy_iff s).1 hb)

/-- What is still to do does not matter to it. -/
theorem InRange.with_todo {s : State} (h : InRange s) (m : List Micro) : InRange { s with todo := m } :=
  ⟨h.bitcnt_le, h.bytecnt_le, h.canonical, h.drive⟩

theorem act_inRange (a : Act) (s : State) (h : InRange s) : InRange (act a s) :=
  have hc := act_counters a s h.bitcnt_le h.bytecnt_le
  have ht := act_trace a s h.canonical h.drive
  ⟨hc.1, hc.2, ht.1, ht.2⟩

theorem pollLoop_inRange (answers : List Bool) (s : State) (hb : s.busy = true) (h : InRange s) :
    (pollLoop answers s).1.busy = true ∧ InRange (pollLoop answers s).1 :=
  pollLoop_keeps (fun t ht hr => runActs_keeps readSlot (fun a _ u _ => act_inRange a u) t ht hr) answers s hb h

/-! A program that ends in `succeed()` keeps the invariant, at both grains. -/

/-- Behind the first micro-action the program still ends in `succeed()`, unless that was it. -/
theorem getLast_tail {m : Micro} {rest : List Micro} (h : (m :: rest).getLast? = some (.one .succeed))
    (hm : m ≠ .one .succeed) : rest.getLast? = some (.one .succeed) := by
  cases rest with
  | nil => exact absurd (by simpa using h) hm
  | cons m' rest => simpa using h

theorem getLast_cons (m : Micro) {rest : List Micro} (h : rest.getLast? = some (.one .succeed)) :
    (m :: rest).getLast? = some (.one .succeed) := by
  cases rest with
  | nil => simp at h
  | cons m' rest => simpa using h

/-- A micro-action that leaves the block busy is no `succeed()`. -/
theorem ne_succeed_of_busy {a : Act} {s : State} (h : (act a s).busy = true) : Micro.one a ≠ .one .succeed := by
  rintro ⟨⟩
  simp [act, State.busy] at h

/-- The poll, run as far as the listed answers go, and what stands behind it (R123). -/
theorem run_poll_inv {rest : List Micro} (ih : ∀ s, s.busy = true → InRange s → Inv (run rest s))
    (hl : rest.getLast? = some (.one .succeed)) (s : State) (hb : s.busy = true) (h : InRange s) :
    Inv (run (.poll :: rest) s) := by
  obtain ⟨hb', h'⟩ := pollLoop_inRange s.script s hb h
  rw [run]
  dsimp only
  split
  · exact ih _ hb' h'
  · exact (h'.with_todo _).inv_of_busy hb' (getLast_cons .poll hl)

/-- A program that ends in `succeed()`, run as far as it goes (R148). -/
theorem run_inv (m : List Micro) (hl : m.getLast? = some (.one .succeed)) (s : State) (hb : s.busy = true)
    (h : InRange s) : Inv (run m s) := by
  induction m generalizing s with
  | nil => simp at hl
  | cons x rest ih =>
    cases x with
    | one a =>
      have ha := act_inRange a s h
      rw [run]
      split
      next hb' => exact ih (getLast_tail hl (ne_succeed_of_busy hb')) _ hb' ha
      next hb' => exact (ha.with_todo []).inv_of_idle (Bool.eq_false_iff.2 hb') rfl
    | poll =>
      have hr := getLast_tail hl (by simp)
      exact run_poll_inv (ih hr) hr s hb h
    | pollTest =>
      have hr := getLast_tail hl (by simp)
      by_cases hbit : s.bit = true
      · rw [run, if_pos hbit]; exact ih hr s hb h
      · rw [run, if_neg hbit]; exact run_poll_inv (ih hr) hr s hb h

/-- One micro-action at the grain of one step. -/
theorem tickAct_inv (a : Act) (rest : List Micro) (s : State) (hb : s.busy = true) (h : InRange s)
    (ht : s.todo = .one a :: rest) (hl : s.todo.getLast? = some (.one .succeed)) : Inv (tickAct a rest s) := by
  have hl' := ht ▸ hl
  rw [tickAct]
  split
  next hc =>
    split
    · exact (h.with_todo rest).inv_of_busy hb (getLast_tail hl' (by simp [hc]))
    · exact InRange.inv_of_busy ⟨h.bitcnt_le, h.bytecnt_le, canonicalLog_pushWait 1 _ h.canonical,
        (driveAfter_pushWait 1 s.log).trans h.drive⟩ hb hl
  next =>
    split
    next n hw =>
      have hr := getLast_tail hl' (by rintro ⟨⟩; simp [waitLength] at hw)
      exact InRange.inv_of_busy ⟨h.bitcnt_le, h.bytecnt_le, h.canonical, h.drive⟩ hb (getLast_cons _ hr)
    next =>
      have ha := (act_inRange a s h).with_todo (if (act a s).busy then rest else [])
      by_cases hb' : (act a s).busy = true
      · exact ha.inv_of_busy hb' ((if_pos hb').symm ▸ getLast_tail hl' (ne_succeed_of_busy hb'))
      · exact ha.inv_of_idle (Bool.eq_false_iff.2 hb') (if_neg hb')

/-- One step of the controller (R20). -/
theorem tick_inv (s : State) (h : Inv s) : Inv (tick s) := by
  cases hb : s.busy with
  | false => rw [tick_idle s hb]; exact h
  | true =>
    have hl := h.todo_of_busy hb
    cases ht : s.todo with
    | nil => simp [ht] at hl
    | cons m rest =>
      cases m with
      | one a => rw [tick_one a rest s hb ht]; exact tickAct_inv a rest s hb h.inRange ht hl
      | poll =>
        rw [tick_poll rest s hb ht]
        rw [ht] at hl
        have hr := getLast_tail hl (by simp)
        exact (h.inRange.with_todo _).inv_of_busy hb
          ((List.getLast?_append_of_ne_nil _ (by simp)).trans (getLast_cons .pollTest hr))
      | pollTest =>
        rw [tick_pollTest rest s hb ht]
        rw [ht] at hl
        have hr := getLast_tail hl (by simp)
        refine (h.inRange.with_todo _).inv_of_busy hb ?_
        cases s.bit with
        | true => exact hr
        | false => exact getLast_cons .poll hr

/-! The issue of an operation, and the host's accesses. -/

theorem issue_inv (opcode : Byte) (first : Phase) (program : List Micro) (hf : first ≠ .idle)
    (hl : program.getLast? = some (.one .succeed)) (s : State) (h : Inv s) : Inv (issue opcode first program s) := by
  cases hb : s.busy with
  | true => rw [issue, hb]; exact h
  | false =>
    rw [issue_of_idle _ _ _ _ ((not_busy_iff s).1 hb)]
    exact InRange.inv_of_busy ⟨h.bitcnt_le, h.bytecnt_le, h.canonical, h.drive⟩ (issued_busy _ _ _ _ hf) hl

theorem writeRegister_inv (off : Offset) (v : Byte) (s : State) (h : Inv s) : Inv (writeRegister off v s) := by
  rw [writeRegister]
  split
  · exact h
  · split <;> exact ⟨h.idle_done, h.busy_ends, h.bitcnt_le, h.bytecnt_le, h.canonical, h.drive⟩

/-- A straight program ends as its last part does. -/
theorem getLast_straight (p : List Act) {q : List Act} (h : q.getLast? = some .succeed) :
    (straight (p ++ q)).getLast? = some (.one .succeed) := by
  simp [straight, h]

/-- A program ends as the part behind its poll does. -/
theorem getLast_poll (m : List Micro) {rest : List Micro} (h : rest.getLast? = some (.one .succeed)) :
    (m ++ .poll :: rest).getLast? = some (.one .succeed) :=
  (List.getLast?_append_of_ne_nil m (by simp)).trans (getLast_cons .poll h)

/-- Every program ends in `succeed()` (R9, R148). -/
theorem programOf_ends (i : Instr) : (programOf i).getLast? = some (.one .succeed) := by
  cases i
  case driveLow | release | sample | crcUpdate => exact getLast_straight [] rfl
  case readBit => exact getLast_straight readSlot rfl
  case readByte => exact getLast_straight receiveByte rfl
  case reset => exact getLast_straight busReset rfl
  case readTemperature => exact getLast_poll _ (getLast_straight readScratchpad rfl)
  all_goals exact getLast_straight _ rfl

theorem startOf_inv (i : Instr) (s : State) (h : Inv s) : Inv (startOf i s) := by
  obtain ⟨opcode, first, hf, he⟩ := startOf_eq i
  rw [he]
  refine issue_inv _ _ _ hf (programOf_ends i) _ ?_
  split
  · exact writeRegister_inv _ _ s h
  · exact h

/-- The operation in progress, run as far as it goes. -/
theorem complete_inv (s : State) (h : Inv s) : Inv (complete s) := by
  cases hb : s.busy with
  | true => exact run_inv _ (h.todo_of_busy hb) s hb h.inRange
  | false =>
    rw [complete, h.idle_done ((not_busy_iff s).1 hb), run, ← h.idle_done ((not_busy_iff s).1 hb)]
    exact h

theorem exec_inv {i : Instr} {s t : State} (h : Inv s) (he : exec i s = .next t) : Inv t := by
  rw [exec_eq] at he
  cases he
  rw [operate]
  split
  · exact h
  · exact complete_inv _ (startOf_inv i s h)

/-- Only fields the invariant does not speak of differ. -/
theorem Inv.of_eq {s t : State} (h : Inv s) (hp : t.phase = s.phase) (ht : t.todo = s.todo)
    (hc : t.bitcnt = s.bitcnt) (hd : t.bytecnt = s.bytecnt) (hl : t.log = s.log) (ho : t.oe = s.oe) : Inv t where
  idle_done hi := ht.trans (h.idle_done (hp.symm.trans hi))
  busy_ends hi := ht ▸ h.busy_ends (fun hs => hi (hp.trans hs))
  bitcnt_le := hc ▸ h.bitcnt_le
  bytecnt_le := hd ▸ h.bytecnt_le
  canonical := hl ▸ h.canonical
  drive := by rw [hl, ho, h.drive]

theorem hostRead_inv (off : Offset) (s : State) (h : Inv s) : Inv (hostRead off s) := h.of_eq rfl rfl rfl rfl rfl rfl

theorem refuse_inv (s : State) (h : Inv s) : Inv (refuse s) := h.of_eq rfl rfl rfl rfl rfl rfl

theorem writeCmd_inv (c : Byte) (s : State) (h : Inv s) : Inv (writeCmd c s) := by
  rw [writeCmd]
  split
  · exact h
  · split
    · exact startOf_inv _ s h
    · exact refuse_inv s h

theorem hostWrite_inv (off : Offset) (v : Byte) (s : State) (h : Inv s) : Inv (hostWrite off v s) := by
  rw [hostWrite]
  split
  · exact writeCmd_inv v s h
  · exact writeRegister_inv off v s h

theorem refuseWord_inv (s : State) (h : Inv s) : Inv (refuseWord s) := by
  rw [refuseWord]
  split
  · exact h
  · exact refuse_inv s h

theorem waitStep_inv (rest : List HostEvent) (s : State) (h : Inv s) : Inv (waitStep rest s) := by
  rw [waitStep]
  split
  · exact tick_inv _ (hostRead_inv _ s h)
  · exact (hostRead_inv 0x01 s h).of_eq rfl rfl rfl rfl rfl rfl

/-- The reset input: the counters go to 0, and the line is released (R160, R161; log 11). -/
theorem applyReset_inv (s : State) (h : Inv s) : Inv (applyReset s) := by
  have ht := act_trace .release s h.canonical h.drive
  have hl : canonicalLog (releaseIfLow s).log = true ∧ driveAfter (releaseIfLow s).log = some false := by
    cases ho : s.oe with
    | true => simpa [releaseIfLow, ho, act] using ht
    | false => simpa [releaseIfLow, ho] using And.intro h.canonical (ho ▸ h.drive)
  exact InRange.inv_of_idle ⟨Nat.zero_le 8, Nat.zero_le 9, hl.1, hl.2⟩ rfl rfl

/-- Settles O59: `Idle`, nothing to do, counters at 0, an empty trace. -/
theorem resetMeetsTheInvariant : Obligations.ResetMeetsTheInvariant :=
  InRange.inv_of_idle ⟨Nat.zero_le 8, Nat.zero_le 9, rfl, rfl⟩ rfl rfl

/-- Settles O60, by the host's next event; an operation is an induction over its program. -/
theorem stepsKeepTheInvariant : Obligations.StepsKeepTheInvariant := by
  intro s t h hs
  have hk : ∀ es, Inv { s with inputs := es } := fun es => h.of_eq rfl rfl rfl rfl rfl rfl
  cases hi : s.inputs with
  | nil => rw [step_nil hi] at hs; cases hs; exact tick_inv s h
  | cons e rest =>
    cases e with
    | read off => rw [step_read hi] at hs; cases hs; exact hostRead_inv off _ (hk rest)
    | write off v => rw [step_write hi] at hs; cases hs; exact hostWrite_inv off v _ (hk rest)
    | run w =>
      cases hw : decodeByte w with
      | ok i => rw [step_run hi hw] at hs; exact exec_inv (hk _) hs
      | error r => rw [step_run_reserved hi hw] at hs; cases hs; exact refuseWord_inv _ (hk _)
    | wait => rw [step_wait hi] at hs; cases hs; exact waitStep_inv rest s h
    | pause => rw [step_pause hi] at hs; cases hs; exact tick_inv _ (hk rest)
    | rst => rw [step_rst hi] at hs; cases hs; exact applyReset_inv _ (hk rest)

end Sys2Proof.Machine

/-!
PROOFS. Reset, `STATUS`, a sample, a wait and the transport of a byte (10_state.md rules R16, R20, R23, R24;
40_bus_primitives.md rules R82, R86; 41_bit_byte_transport.md rules R96, R97).
-/

namespace Sys2Proof.Machine

/-- Settles O7: the values R24 gives. -/
theorem resetStateIsIdleAndReleased : Obligations.ResetStateIsIdleAndReleased := ⟨rfl, rfl, rfl, rfl, rfl, rfl⟩

/-- The trace after the line has been released if it was low (R80). -/
theorem releaseIfLow_trace (s : State) : (releaseIfLow s).trace = s.trace ++ if s.oe then [.rel] else [] := by
  cases ho : s.oe <;> simp [releaseIfLow, State.trace, ho]

/-- Settles O8: the step is `applyReset`, and only the trace looks at what the line was. -/
theorem rstRecoversTheBlock : Obligations.RstRecoversTheBlock := by
  intro s rest h
  exact ⟨_, step_rst h, rfl, rfl, rfl, rfl, rfl, rfl, rfl, rfl, rfl, rfl, rfl, rfl,
    releaseIfLow_trace { s with inputs := rest }⟩

/-- `STATUS` of the four values of `BUSY` and `OK`, bit by bit (R16). -/
theorem status_bits (busy ok : Bool) :
    let v : Byte := (if busy then 0x01 else 0x00) ||| (if ok then 0x02 else 0x00)
    v.getLsbD 0 = busy ∧ v.getLsbD 1 = ok ∧ ∀ k < 8, 2 ≤ k → v.getLsbD k = false := by
  revert busy ok
  decide

/-- Settles O9: bits 0 and 1 are the two flags; a byte has no bit beyond 7. -/
theorem statusHoldsBusyAndOk : Obligations.StatusHoldsBusyAndOk := by
  intro s
  obtain ⟨h0, h1, hrest⟩ := status_bits s.busy s.ok
  rw [← busy_iff, State.status]
  refine ⟨by rw [h0], h1, fun k hk => ?_⟩
  obtain hlt | hge := Nat.lt_or_ge k 8
  · exact hrest k hlt hk
  · exact BitVec.getLsbD_of_ge _ k hge

/-- Settles O14: an operation is issued in `Idle` only. -/
theorem busyBlockDropsEveryInstruction : Obligations.BusyBlockDropsEveryInstruction := by
  intro i s hb
  rw [exec_eq, operate, if_pos hb]

/-- Settles O15, by the drive state. -/
theorem sampleReadsTheLine : Obligations.SampleReadsTheLine := by
  intro s
  refine ⟨afterSample_oe s, by simp [sampleLine, State.trace], fun ho => ?_, fun ho => ?_⟩
  · simp [sampleLine, lineLevel, afterSample, ho, Answered, consume]
  · have hs : s = { s with oe := false } := by rw [← ho]
    refine ⟨?_, by simp [sampleLine, Answered, afterSample_released s ho, consume]⟩
    rw [upcoming_succ, answer, ← hs]; rfl

/-- Settles O16: the first step loads the timer, the next ones count it down, the last finds it at 0. -/
theorem waitCountsDownMicroseconds : Obligations.WaitCountsDownMicroseconds := by
  intro s n rest hb ht
  have hload : tick s = { s with timer := n, todo := .one .counting :: rest } := tick_one (.wait n) rest s hb ht
  have hcount : ∀ k, k ≤ n → tick^[k + 1] s =
      { s with timer := n - k, todo := .one .counting :: rest, log := pushWait k s.log } := by
    intro k hk
    rw [Function.iterate_succ_apply, hload]
    exact ticks_counting rest n k hk _ hb rfl rfl
  refine ⟨hcount, ?_⟩
  rw [Function.iterate_succ_apply', hcount n (Nat.le_refl n), Nat.sub_self]
  exact tick_counted rest _ hb rfl rfl

/-- The result of an operation and its end. -/
theorem runActs_result_succeed (a : Act) (s : State) (h : (act a s).busy = true) :
    runActs [a, .succeed] s = succeed (act a s) := by
  rw [runActs, if_pos h, runActs_succeed]

/-- Settles O22, by the law of a single byte sent. -/
theorem writeByteSendsEightSlots : Obligations.WriteByteSendsEightSlots := by
  refine ⟨rfl, fun s h => ?_⟩
  have hb := issued_busy (encode .writeByte) .direct (straight (sendByte .argA ++ [.succeed])) s (by simp)
  rw [exec_writeByte s h, ran, runActs_then _ _ _ _ hb (runActs_sendByte .argA _ hb fun _ => rfl) hb, runActs_succeed]
  simp [succeed, flagsSucceeded, sentByte, issued, Src.value, succeededAs, encode, show s.phase = .idle from h]

/-- Settles O23, by the law of a single byte read. -/
theorem readByteReturnsTheSamples : Obligations.ReadByteReturnsTheSamples := by
  refine ⟨rfl, fun s x h hs => ?_⟩
  have hb := issued_busy (encode .readByte) .direct (straight (receiveByte ++ [.resultByte, .succeed])) s (by simp)
  rw [exec_readByte s h, ran, runActs_then _ _ _ _ hb (runActs_receiveByte x _ hb hs) hb,
    runActs_result_succeed .resultByte _ (by exact hb)]
  simp [succeed, flagsSucceeded, act, consume, issued, succeededAs, encode, show s.phase = .idle from h]

end Sys2Proof.Machine

/-!
PROOFS. The causes an operation can end with (10_state.md rule R21; 60_exceptions.md rules R140, R141).
-/

namespace Sys2Proof.Machine

/-! The causes (R140, R141). -/

/-- The cause a check fails with (R100, R102, R121). -/
def Act.raises : Act → Option Cause
  | .checkPresence => some .noPresence
  | .checkRom => some .romCrc
  | .checkFamily _ => some .familyMismatch
  | .checkScratchpad => some .scratchpadCrc
  | _ => none

/-- What a micro-action does to the outcome of the operation: it leaves it open, or it succeeds, or it fails with its
cause. -/
theorem act_outcome (a : Act) (ha : a ≠ .enter .idle) (s : State) (hb : s.busy = true) :
    ((act a s).busy = true ∧ (act a s).ok = s.ok ∧ (act a s).cause = s.cause) ∨ act a s = succeed s ∨
      ∃ c w, a.raises = some c ∧ act a s = fail c w := by
  have hf : ∀ (ok : Bool) (c : Cause) (t : State), a.raises = some c → t.busy = true → t.ok = s.ok →
      t.cause = s.cause → act a s = failUnless ok c t →
      ((act a s).busy = true ∧ (act a s).ok = s.ok ∧ (act a s).cause = s.cause) ∨ act a s = succeed s ∨
        ∃ c w, a.raises = some c ∧ act a s = fail c w := by
    intro ok c t hc ht hok hcause he
    cases ok with
    | true => exact .inl (he ▸ ⟨ht, hok, hcause⟩)
    | false => exact .inr (.inr ⟨c, t, hc, he⟩)
  cases a
  case enter p => exact .inl ⟨by simpa [act, State.busy] using ha, rfl, rfl⟩
  case sample =>
    exact .inl ⟨by simpa [act, sampleLine, State.busy] using hb, by simp [act, sampleLine], by simp [act, sampleLine]⟩
  case checkPresence => exact hf _ _ s rfl hb rfl rfl rfl
  case checkRom => exact hf _ _ { s with crcAcc := residue s.rom.toList } rfl hb rfl rfl rfl
  case checkFamily x => exact hf _ _ s rfl hb rfl rfl rfl
  case checkScratchpad =>
    cases he : Config.spadCrcEn with
    | false => exact .inl (by simp [act, checkScratchpad, he, hb])
    | true =>
      exact hf _ _ { s with crcAcc := residue s.image.toList } rfl hb rfl rfl (by simp only [act, checkScratchpad, he]; rfl)
  case succeedIfSame =>
    by_cases hc : resolutionField s.image[4] = resolutionOperand s.aL
    · exact .inr (.inl (if_pos hc))
    · exact .inl (by rw [act, if_neg hc]; exact ⟨hb, rfl, rfl⟩)
  case succeedUnlessPersist =>
    by_cases hc : persistOperand s.bL = true
    · exact .inl (by rw [act, if_pos hc]; exact ⟨hb, rfl, rfl⟩)
    · exact .inr (.inl (if_neg hc))
  case succeed => exact .inr (.inl rfl)
  all_goals exact .inl ⟨hb, rfl, rfl⟩

/-- The outcome so far: while the block is busy `OK` is 0 and there is no cause; when it has ended, `OK` is 1 exactly
without a cause, and the cause is one of those listed. -/
structure Reports (cs : List Cause) (s : State) : Prop where
  of_busy : s.busy = true → s.ok = false ∧ s.cause = none
  of_idle : s.busy = false → (s.ok = true ↔ s.cause = none)
  listed : ∀ c, s.cause = some c → c ∈ cs

/-- A micro-action ends no operation but by `succeed()` or a failure, and fails with a listed cause only. -/
def Act.within (cs : List Cause) (a : Act) : Bool := a != .enter .idle && a.raises.all (cs.contains ·)

theorem act_reports {cs : List Cause} (a : Act) (ha : a.within cs = true) (s : State) (hb : s.busy = true)
    (h : Reports cs s) : Reports cs (act a s) := by
  rw [Act.within, Bool.and_eq_true, bne_iff_ne] at ha
  obtain ⟨hok, hcause⟩ := h.of_busy hb
  obtain ⟨hb', hok', hcause'⟩ | he | ⟨c, w, hc, he⟩ := act_outcome a ha.1 s hb
  · exact ⟨fun _ => ⟨hok'.trans hok, hcause'.trans hcause⟩, fun hn => absurd hb' (by simp [hn]),
      fun c hc => h.listed c (hcause'.symm.trans hc)⟩
  · rw [he]
    exact ⟨fun hn => by simp [State.busy] at hn, fun _ => by simp [hcause], h.listed⟩
  · rw [he]
    refine ⟨fun hn => by simp [fail_busy] at hn, fun _ => by simp, fun c' hc' => ?_⟩
    obtain rfl : c = c' := by simpa using hc'
    simpa [hc] using ha.2

/-- The causes R141 lists for an instruction. -/
def causesOf (i : Instr) : List Cause :=
  if i ∈ [Instr.readScratchpad, .readTemperature, .setResolution] then
    [.noPresence, .romCrc, .familyMismatch, .scratchpadCrc]
  else if i = .select ∨ i = .writeScratchpad then [.noPresence, .romCrc, .familyMismatch]
  else if i = .selectAny then [.noPresence, .romCrc]
  else if i = .reset then [.noPresence]
  else []

/-- No transfer can fail (R99). -/
theorem within_of_isTransfer {cs : List Cause} {p : List Act} (hp : p.all Act.isTransfer = true) :
    p.all (Act.within cs) = true := by
  refine all_of_isTransfer (fun a ha => ?_) hp
  cases a <;> simp_all [Act.isTransfer, Act.within, Act.raises]

/-- A selection checks the presence, the ROM code and, without the wildcard, its family (R102). -/
theorem within_select {cs : List Cause} (hp : .noPresence ∈ cs) (hr : .romCrc ∈ cs) (cmd fam : Src) (any : Bool)
    (hf : any = true ∨ .familyMismatch ∈ cs) : (select cmd fam any).all (Act.within cs) = true := by
  have hpulse : busReset.all (Act.within cs) = true := rfl
  have hsend := fun x => within_of_isTransfer (cs := cs) (isTransfer_sendByte x)
  have hrom := within_of_isTransfer (cs := cs) isTransfer_readRomCode
  cases any with
  | true => simp [select, hpulse, hsend, hrom, Act.within, Act.raises, hp, hr]
  | false => simp [select, hpulse, hsend, hrom, Act.within, Act.raises, hp, hr, hf.resolve_left]

/-- A scratchpad read checks the scratchpad as well (R121). -/
theorem within_readScratchpad {cs : List Cause} (hp : .noPresence ∈ cs) (hr : .romCrc ∈ cs)
    (hf : .familyMismatch ∈ cs) (hs : .scratchpadCrc ∈ cs) : readScratchpad.all (Act.within cs) = true := by
  have hsel := fun cmd fam => within_select hp hr cmd fam false (.inr hf)
  have himage := within_of_isTransfer (cs := cs) isTransfer_readImage
  simp [readScratchpad, selectDs, hsel, himage, Act.within, Act.raises, hs]

/-- A scratchpad write checks nothing beyond its selection (R122). -/
theorem within_writeScratchpad {cs : List Cause} (hp : .noPresence ∈ cs) (hr : .romCrc ∈ cs)
    (hf : .familyMismatch ∈ cs) : writeScratchpad.all (Act.within cs) = true := by
  have hsel := fun cmd fam => within_select hp hr cmd fam false (.inr hf)
  have himage := within_of_isTransfer (cs := cs) isTransfer_writeImage
  simp [writeScratchpad, selectDs, hsel, himage, Act.within, Act.raises]

/-- The same of a step of the program; the poll raises nothing (R123). -/
def Micro.within (cs : List Cause) : Micro → Bool
  | .one a => a.within cs
  | .poll | .pollTest => true

theorem within_straight (cs : List Cause) (p : List Act) :
    (straight p).all (Micro.within cs) = p.all (Act.within cs) := List.all_map

/-- Every instruction raises only the causes listed for it (R141). -/
theorem within_programOf (i : Instr) : (programOf i).all (Micro.within (causesOf i)) = true := by
  cases i
  case select | selectAny =>
    rw [programOf, within_straight, List.all_append, within_select (by decide) (by decide) _ _ _ (by decide)]
    rfl
  case readScratchpad =>
    rw [programOf, within_straight, List.all_append,
      within_readScratchpad (by decide) (by decide) (by decide) (by decide)]
    rfl
  case writeScratchpad =>
    rw [programOf, within_straight, List.all_append, within_writeScratchpad (by decide) (by decide) (by decide)]
    rfl
  case readTemperature =>
    rw [programOf, List.all_append, List.all_cons, within_straight, within_straight, List.all_append, List.all_append,
      selectDs, within_select (by decide) (by decide) _ _ _ (by decide),
      within_readScratchpad (by decide) (by decide) (by decide) (by decide)]
    rfl
  case setResolution =>
    rw [programOf, within_straight]
    simp only [List.all_append, selectDs]
    rw [within_select (by decide) (by decide) _ _ _ (by decide),
      within_readScratchpad (by decide) (by decide) (by decide) (by decide),
      within_writeScratchpad (by decide) (by decide) (by decide)]
    rfl
  case readByte =>
    rw [programOf, within_straight, List.all_append, within_of_isTransfer isTransfer_receiveByte]
    rfl
  case driveLow | release | sample | writeBit | readBit | reset | crcUpdate => rfl
  all_goals
    rw [programOf, within_straight, List.all_append, within_of_isTransfer (isTransfer_sendByte _)]
    rfl

/-- What an operation reports: a listed cause, and `OK` exactly without one (R21, R140). -/
theorem exec_reports {i : Instr} {s t : State} (h : Idle s) (he : exec i s = .next t) : Reports (causesOf i) t := by
  obtain ⟨opcode, first, hf, hx⟩ := exec_of_idle i
  cases (hx s h).symm.trans he
  have hb := issued_busy opcode first (programOf i) (prepared i s) hf
  refine run_keeps (I := Reports (causesOf i)) (fun _ _ hr => ⟨hr.of_busy, hr.of_idle, hr.listed⟩)
    (fun s hb hr => ?_) _ (fun a ha => ?_) _ hb
    ⟨fun _ => ⟨rfl, rfl⟩, fun hn => absurd hb (by simp [hn]), fun _ hc => by simp [issued] at hc⟩
  · rw [runActs_readSlot s hb]; exact ⟨hr.of_busy, hr.of_idle, hr.listed⟩
  · exact act_reports a (List.all_eq_true.1 (within_programOf i) (.one a) ha)

/-- Which instructions each cause is listed for (R141). -/
theorem mem_causesOf (i : Instr) :
    (.noPresence ∈ causesOf i → i ∈ sessionOperations) ∧
    (.romCrc ∈ causesOf i → i ∈ sessionOperations ∧ i ≠ .reset) ∧
    (.familyMismatch ∈ causesOf i → i ∈ sessionOperations ∧ i ≠ .reset ∧ i ≠ .selectAny) ∧
    (.scratchpadCrc ∈ causesOf i → i ∈ [Instr.readScratchpad, .readTemperature, .setResolution]) := by
  cases i <;> decide

/-- Settles O52: the causes are those of the checks in the instruction's program. -/
theorem causesArisePerOperation : Obligations.CausesArisePerOperation := by
  intro i s t h he
  have hr := exec_reports h he
  obtain ⟨hpresence, hrom, hfamily, hscratchpad⟩ := mem_causesOf i
  exact ⟨fun hc => hpresence (hr.listed _ hc), fun hc => hrom (hr.listed _ hc), fun hc => hfamily (hr.listed _ hc),
    fun hc => hscratchpad (hr.listed _ hc), fun ht => hr.of_idle ((not_busy_iff t).2 ht)⟩

end Sys2Proof.Machine

/-!
PROOFS. The drive state at the end of an operation (10_state.md rule R13).
-/

namespace Sys2Proof.Machine

/-! The drive state (R13). -/

/-- A program that releases the line, whatever it was. -/
def Releases (p : List Act) : Prop := ∀ s, s.busy = true → (runActs p s).oe = false

/-- A program that ends with the line released if it begins so. -/
def KeepsReleased (p : List Act) : Prop := ∀ s, s.busy = true → s.oe = false → (runActs p s).oe = false

theorem Releases.keeps {p : List Act} (h : Releases p) : KeepsReleased p := fun s hb _ => h s hb

/-- What stands behind need only keep the line released. -/
theorem Releases.append {p q : List Act} (hp : Releases p) (hq : KeepsReleased q) : Releases (p ++ q) := by
  intro s hb
  rw [runActs_append p q s hb]
  split
  next hb' => exact hq _ hb' (hp s hb)
  next => exact hp s hb

theorem KeepsReleased.append {p q : List Act} (hp : KeepsReleased p) (hq : KeepsReleased q) : KeepsReleased (p ++ q) := by
  intro s hb ho
  rw [runActs_append p q s hb]
  split
  next hb' => exact hq _ hb' (hp s hb ho)
  next => exact hp s hb ho

theorem keepsReleased_flatMap {α : Type} (f : α → List Act) (xs : List α) (h : ∀ x ∈ xs, KeepsReleased (f x)) :
    KeepsReleased (xs.flatMap f) := by
  induction xs with
  | nil => exact fun _ _ ho => ho
  | cons x xs ih => exact (h x (by simp)).append (ih fun y hy => h y (by simp [hy]))

/-- Only `DriveLow()` pulls the line low (R13, R81). -/
theorem act_oe (a : Act) (ha : a ≠ .driveLow) (s : State) (ho : s.oe = false) : (act a s).oe = false := by
  have hf : ∀ (ok : Bool) (c : Cause) (t : State), t.oe = false → (failUnless ok c t).oe = false := by
    intro ok c t ht
    cases ok with
    | true => exact ht
    | false => exact fail_oe c t
  cases a
  case driveLow => exact absurd rfl ha
  case release => rfl
  case sample => exact (afterSample_oe s).trans ho
  case checkPresence => exact hf _ _ s ho
  case checkRom => exact hf _ _ { s with crcAcc := residue s.rom.toList } ho
  case checkFamily x => exact hf _ _ s ho
  case checkScratchpad =>
    rw [act, checkScratchpad]
    split
    · exact hf _ _ { s with crcAcc := residue s.image.toList } ho
    · exact ho
  case succeedIfSame => rw [act]; split <;> exact ho
  case succeedUnlessPersist => rw [act]; split <;> exact ho
  all_goals exact ho

/-- A program without `DriveLow()`. -/
theorem keepsReleased_of_all {p : List Act} (h : p.all (· != .driveLow) = true) : KeepsReleased p := fun s hb ho =>
  runActs_keeps (I := fun t => t.oe = false) p
    (fun a ha t _ => act_oe a (by simpa using List.all_eq_true.1 h a ha) t) s hb ho

theorem releases_writeSlot : Releases writeSlot := fun s hb => by rw [runActs_writeSlot s hb]
theorem releases_readSlot : Releases readSlot := fun s hb => by rw [runActs_readSlot s hb]
theorem releases_busReset : Releases busReset := fun s _ => by rw [runActs_busReset s]; rfl
theorem releases_writeByte (x : Src) : Releases (writeByte x) := fun s hb => by rw [runActs_writeByte x s hb]

/-- Whatever byte is read. -/
theorem releases_readByte : Releases readByte := by
  intro s hb
  obtain ⟨x, hx⟩ := exists_byte (s.upcoming 8) (upcoming_length 8 s)
  rw [runActs_readByte x s hb hx.symm]

/-- What stands before a program that releases the line does not matter, if it leaves the block busy. -/
theorem Releases.after_act {a : Act} {p : List Act} (hp : Releases p)
    (ha : ∀ s, s.busy = true → (act a s).busy = true) : Releases (a :: p) := fun s hb => by
  rw [runActs, if_pos (ha s hb)]
  exact hp _ (ha s hb)

theorem releases_sendByte (x : Src) : Releases (sendByte x) :=
  ((releases_writeByte x).append (q := [.byteDone]) (keepsReleased_of_all rfl)).after_act fun _ hb => hb

theorem releases_receiveByte : Releases receiveByte :=
  (releases_readByte.append (q := [.byteDone]) (keepsReleased_of_all rfl)).after_act fun _ hb => hb

/-- Bytes read into places. -/
theorem keepsReleased_readInto {stores : List Act} (h : stores.all (· != .driveLow) = true) :
    KeepsReleased (readInto stores) :=
  keepsReleased_flatMap _ _ fun st hst => (releases_readByte.append (keepsReleased_of_all (by
    simpa using List.all_eq_true.1 h st hst))).keeps

theorem keepsReleased_readRomCode : KeepsReleased readRomCode :=
  (keepsReleased_of_all (p := [.transfer 8]) rfl).append (keepsReleased_readInto rfl)

theorem keepsReleased_readImage : KeepsReleased readImage :=
  (keepsReleased_of_all (p := [.transfer 9]) rfl).append (keepsReleased_readInto rfl)

theorem keepsReleased_writeImage : KeepsReleased writeImage :=
  (keepsReleased_of_all (p := [.transfer 3]) rfl).append (keepsReleased_flatMap _ _ fun x _ =>
    ((releases_writeByte x).append (q := [.byteDone]) (keepsReleased_of_all rfl)).keeps)

/-- A selection begins with a reset pulse, which releases the line (R100, R102). -/
theorem releases_select (cmd fam : Src) (any : Bool) : Releases (select cmd fam any) :=
  ((((((releases_busReset.append (keepsReleased_of_all rfl)).append (releases_sendByte _).keeps).append
    keepsReleased_readRomCode).append (keepsReleased_of_all rfl)).append
    (keepsReleased_of_all (by cases any <;> rfl))).append (keepsReleased_of_all rfl)).append (releases_sendByte _).keeps

theorem releases_readScratchpad : Releases readScratchpad :=
  (((releases_select _ _ _).append (keepsReleased_of_all rfl)).append keepsReleased_readImage).append
    (keepsReleased_of_all rfl)

theorem releases_writeScratchpad : Releases writeScratchpad :=
  ((releases_select _ _ _).append (keepsReleased_of_all rfl)).append keepsReleased_writeImage

theorem run_straight_oe (p : List Act) (s : State) : (run (straight p) s).oe = (runActs p s).oe := by rw [run_straight]

theorem releases_release : Releases [.release] := by
  intro s hb
  rw [runActs, if_pos (show (act .release s).busy = true from hb)]
  rfl

/-- The conversion releases the line, and the poll and what stands behind it keep it released (R123, R126). -/
theorem run_readTemperature_oe (s : State) (hb : s.busy = true) : (run (programOf .readTemperature) s).oe = false := by
  have hconvert : Releases (selectDs .convertT ++ [.enter .dataTransfer]) :=
    (releases_select _ _ _).append (keepsReleased_of_all rfl)
  have hread : Releases (readScratchpad ++ [.resultTemperature, .succeed]) :=
    releases_readScratchpad.append (keepsReleased_of_all rfl)
  rw [programOf, run_straight_append _ _ _ hb]
  split
  next hb' =>
    obtain ⟨hb2, ho⟩ := pollLoop_keeps (I := fun t => t.oe = false) (fun t ht _ => releases_readSlot t ht)
      (runActs (selectDs .convertT ++ [.enter .dataTransfer]) s).script _ hb' (hconvert s hb)
    rw [run]
    dsimp only
    split
    · rw [run_straight_oe]; exact hread _ hb2
    · exact ho
  next => exact hconvert s hb

/-- Every operation but `DRIVE_LOW`, `SAMPLE` and `CRC_UPDATE` leaves the line released (R13). -/
theorem run_programOf_oe (i : Instr) (h1 : i ≠ .driveLow) (h2 : i ≠ .sample) (h3 : i ≠ .crcUpdate) (s : State)
    (hb : s.busy = true) : (run (programOf i) s).oe = false := by
  have hend : ∀ {p : List Act}, Releases p → ∀ {q : List Act}, q.all (· != .driveLow) = true →
      (run (straight (p ++ q)) s).oe = false := by
    intro p hp q hq
    rw [run_straight_oe]
    exact hp.append (keepsReleased_of_all hq) s hb
  cases i
  case driveLow => exact absurd rfl h1
  case sample => exact absurd rfl h2
  case crcUpdate => exact absurd rfl h3
  case release => exact hend releases_release rfl
  case writeBit => exact hend (releases_writeSlot.after_act (a := .bitFromA) fun _ hb => hb) (q := [.succeed]) rfl
  case readBit => exact hend releases_readSlot rfl
  case readByte => exact hend releases_receiveByte rfl
  case reset => exact hend releases_busReset rfl
  case select | selectAny => exact hend (releases_select _ _ _) rfl
  case readScratchpad => exact hend releases_readScratchpad rfl
  case writeScratchpad => exact hend releases_writeScratchpad rfl
  case readTemperature => exact run_readTemperature_oe s hb
  case setResolution =>
    exact hend (((((releases_readScratchpad.append (keepsReleased_of_all rfl)).append releases_writeScratchpad.keeps).append
      (keepsReleased_of_all rfl)).append (releases_select _ _ _).keeps)) rfl
  all_goals exact hend (releases_sendByte .argA) rfl

/-- `SAMPLE` and `CRC_UPDATE` do not touch the drive state (R85, R114). -/
theorem exec_keeps_oe {i : Instr} {s t : State} (h : Idle s) (hi : i = .sample ∨ i = .crcUpdate)
    (he : exec i s = .next t) : t.oe = s.oe := by
  obtain rfl | rfl := hi
  · cases (exec_sample s h).symm.trans he
    simp [ran, runActs, act, sampleLine, issued, State.busy]
  · cases (exec_crcUpdate s h).symm.trans he
    simp [ran, runActs, act, issued, State.busy]

/-- Settles O53: a session or a slot releases the line; `SAMPLE` and `CRC_UPDATE` keep it. -/
theorem operationsReleaseTheLine : Obligations.OperationsReleaseTheLine := by
  intro i s t h he h1
  have hkeep : i = .sample ∨ i = .crcUpdate → t.oe = s.oe := fun hi => exec_keeps_oe h hi he
  have hrel : i ≠ .sample → i ≠ .crcUpdate → t.oe = false := by
    intro h2 h3
    obtain ⟨opcode, first, hf, hx⟩ := exec_of_idle i
    cases (hx s h).symm.trans he
    exact run_programOf_oe i h1 h2 h3 _ (issued_busy _ _ _ _ hf)
  refine ⟨fun ho => ?_, hrel, hkeep⟩
  by_cases hi : i = .sample ∨ i = .crcUpdate
  · exact (hkeep hi).trans ho
  · exact hrel (fun e => hi (.inl e)) (fun e => hi (.inr e))

end Sys2Proof.Machine

/-!
PROOFS. No state survives an operation: two runs side by side (10_state.md rule R22).
-/

namespace Sys2Proof.Machine

/-! Two runs of an operation side by side (R22). -/

/-- From `s` and `t` two runs of the operation `i` have come to `s'` and `t'` in the same way: they have put the same on
the trace, and agree on the outcome, the drive state, the environment and the latches that hold operands of `i`. -/
structure Abreast (i : Instr) (s t s' t' : State) : Prop where
  trace : ∃ seg, s'.log = seg ++ s.log ∧ t'.log = seg ++ t.log
  phase : s'.phase = t'.phase
  ok : s'.ok = t'.ok
  oe : s'.oe = t'.oe
  cause : s'.cause = t'.cause
  script : s'.script = t'.script
  draws : s'.draws = t'.draws
  open_not_ok : s'.busy = true → s'.ok = false
  latchA : i.form ≠ .n → i.form ≠ .s → s'.aL = t'.aL
  latchB : i.form = .ab → s'.bL = t'.bL

/-- The result registers of the operation are the same (R64). -/
structure SameResults (i : Instr) (s t : State) : Prop where
  res0 : i ∈ [Instr.sample, .readBit, .readByte, .crcUpdate, .readTemperature] → s.res0 = t.res0
  res1 : i = .readTemperature → s.res1 = t.res1
  buf : i ∈ [Instr.readScratchpad, .readTemperature, .setResolution] → s.buf = t.buf

/-- Two runs that have come the same way, to `Q` if they are to go on, or with the same results if they have succeeded. -/
structure Goes (i : Instr) (Q : State → State → Prop) (s t s' t' : State) : Prop extends Abreast i s t s' t' where
  onward : s'.busy = true → Q s' t'
  done : s'.busy = false → s'.ok = true → SameResults i s' t'

/-- Two runs of a straight program of the operation `i` from states related by `P` go the same way, to states related by
`Q`. -/
def Twice (i : Instr) (P : State → State → Prop) (p : List Act) (Q : State → State → Prop) : Prop :=
  ∀ s t, s.busy = true → Abreast i s t s t → P s t → Goes i Q s t (runActs p s) (runActs p t)

/-- What one run does by answering `n` samples and putting `seg` on the trace, the outcome left open. -/
structure Went (n : Nat) (seg : List LineAction) (s s' : State) : Prop where
  log : s'.log = seg ++ s.log
  ok : s'.ok = s.ok
  cause : s'.cause = s.cause
  script : s'.script = (consume n s).script
  draws : s'.draws = (consume n s).draws
  aL : s'.aL = s.aL
  bL : s'.bL = s.bL

/-- What one run does without asking the environment. -/
theorem Went.unasked {seg : List LineAction} {s s' : State} (log : s'.log = seg ++ s.log) (ok : s'.ok = s.ok)
    (cause : s'.cause = s.cause) (script : s'.script = s.script) (draws : s'.draws = s.draws) (aL : s'.aL = s.aL)
    (bL : s'.bL = s.bL) : Went 0 seg s s' :=
  ⟨log, ok, cause, by rw [consume_zero, script], by rw [consume_zero, draws], aL, bL⟩

section
variable {i : Instr} {s t s' t' s'' t'' : State} {P P' Q Q' R : State → State → Prop} {p q : List Act}

theorem Abreast.busy (h : Abreast i s t s' t') : t'.busy = s'.busy := by rw [State.busy, State.busy, h.phase]

theorem Abreast.self (h : Abreast i s t s' t') : Abreast i s' t' s' t' := { h with trace := ⟨[], rfl, rfl⟩ }

theorem Abreast.trans (h : Abreast i s t s' t') (h' : Abreast i s' t' s'' t'') : Abreast i s t s'' t'' := by
  obtain ⟨seg, hs, ht⟩ := h.trace
  obtain ⟨seg', hs', ht'⟩ := h'.trace
  exact { h' with trace := ⟨seg' ++ seg, by rw [hs', hs, List.append_assoc], by rw [ht', ht, List.append_assoc]⟩ }

/-- The environment answers both alike (R23). -/
theorem Abreast.upcoming (h : Abreast i s t s' t') (n : Nat) : t'.upcoming n = s'.upcoming n :=
  upcoming_congr h.script.symm h.draws.symm n

theorem Abreast.answer (h : Abreast i s t s' t') : answer t' = answer s' := by
  have hu := h.upcoming 1
  rw [upcoming_succ, upcoming_succ] at hu
  exact (List.cons.inj hu).1

/-- Two runs that each do the same to the line and the environment. -/
theorem Abreast.went (h : Abreast i s t s t) (hb : s.busy = true) {n : Nat} {seg : List LineAction} (hs : Went n seg s s')
    (ht : Went n seg t t') (hp : s'.phase = t'.phase) (ho : s'.oe = t'.oe) : Abreast i s t s' t' where
  trace := ⟨seg, hs.log, ht.log⟩
  phase := hp
  ok := by rw [hs.ok, ht.ok, h.ok]
  oe := ho
  cause := by rw [hs.cause, ht.cause, h.cause]
  script := by rw [hs.script, ht.script, consume, consume, h.script]
  draws := by rw [hs.draws, ht.draws, consume, consume, h.script, h.draws]
  open_not_ok _ := hs.ok.trans (h.open_not_ok hb)
  latchA h1 h2 := by rw [hs.aL, ht.aL, h.latchA h1 h2]
  latchB h1 := by rw [hs.bL, ht.bL, h.latchB h1]

/-- So they go on, to what they have come to. -/
theorem Goes.went (h : Abreast i s t s t) (hb : s.busy = true) {n : Nat} {seg : List LineAction} (hs : Went n seg s s')
    (ht : Went n seg t t') (hp : s'.phase = t'.phase) (ho : s'.oe = t'.oe) (hq : Q s' t') : Goes i Q s t s' t' :=
  { h.went hb hs ht hp ho with
    onward := fun _ => hq
    done := fun _ hok => absurd (hs.ok.symm.trans hok) (by simp [h.open_not_ok hb]) }

/-- A failure in both. -/
theorem Goes.fail (h : Abreast i s t s' t') (c : Cause) : Goes i Q s t (fail c s') (fail c t') where
  trace := by
    obtain ⟨seg, hs, ht⟩ := h.trace
    simp only [fail_log, releaseIfLow_eq, ← h.oe]
    cases s'.oe with
    | true => exact ⟨.rel :: seg, by simp [hs], by simp [ht]⟩
    | false => exact ⟨seg, hs, ht⟩
  phase := by simp
  ok := by simp
  oe := by simp
  cause := by simp
  script := by simp [h.script]
  draws := by simp [h.draws]
  open_not_ok _ := by simp
  latchA h1 h2 := by simp [h.latchA h1 h2]
  latchB h1 := by simp [h.latchB h1]
  onward hb := absurd hb (by simp [fail_busy])
  done _ hok := absurd hok (by simp)

/-- Success in both. -/
theorem Goes.succeed (h : Abreast i s t s' t') (hr : SameResults i s' t') :
    Goes i Q s t (succeed s') (succeed t') where
  trace := h.trace
  phase := rfl
  ok := rfl
  oe := h.oe
  cause := h.cause
  script := h.script
  draws := h.draws
  open_not_ok hb := by simp [State.busy] at hb
  latchA := h.latchA
  latchB := h.latchB
  onward hb := by simp [State.busy] at hb
  done _ _ := ⟨hr.res0, hr.res1, hr.buf⟩

/-- Nothing more done. -/
theorem Goes.stay (h : Abreast i s t s' t') (hb : s'.busy = true) (hq : Q s' t') : Goes i Q s t s' t' :=
  { h with onward := fun _ => hq, done := fun hn => absurd hb (by simp [hn]) }

/-- A check with the same verdict in both. -/
theorem Goes.failUnless {a b : Bool} (c : Cause) (h : Abreast i s t s' t') (hb : s'.busy = true) (hab : a = b)
    (hq : Q s' t') : Goes i Q s t (failUnless a c s') (failUnless b c t') := by
  subst hab
  cases a with
  | true => exact Goes.stay h hb hq
  | false => exact Goes.fail h c

theorem Goes.after (h : Abreast i s t s' t') (g : Goes i Q s' t' s'' t'') : Goes i Q s t s'' t'' :=
  { h.trans g.toAbreast with onward := g.onward, done := g.done }

/-- One part after the other. -/
theorem Twice.append (hp : Twice i P p Q) (hq : Twice i Q q R) : Twice i P (p ++ q) R := by
  intro s t hb h hP
  have g := hp s t hb h hP
  rw [runActs_append p q s hb, runActs_append p q t (h.busy.trans hb), g.busy]
  by_cases hb' : (runActs p s).busy = true
  · rw [if_pos hb', if_pos hb']
    exact Goes.after g.toAbreast (hq _ _ hb' g.toAbreast.self (g.onward hb'))
  · rw [if_neg hb', if_neg hb']
    exact { g with onward := fun hn => absurd hn hb' }

theorem runActs_one (a : Act) (s : State) : runActs [a] s = act a s := by
  rw [runActs]
  split <;> rfl

/-- A micro-action. -/
theorem twice_act {a : Act} (h : ∀ s t, s.busy = true → Abreast i s t s t → P s t → Goes i Q s t (act a s) (act a t)) :
    Twice i P [a] Q := by
  intro s t hb hab hp
  rw [runActs_one, runActs_one]
  exact h s t hb hab hp

/-! Single micro-actions. -/

/-- A micro-action that does the same to the line in both and does not ask the environment. -/
theorem twice_unasked {a : Act} {seg : List LineAction} (hlog : ∀ s, (act a s).log = seg ++ s.log)
    (hkeep : ∀ s, (act a s).ok = s.ok ∧ (act a s).cause = s.cause ∧ (act a s).script = s.script ∧
      (act a s).draws = s.draws ∧ (act a s).aL = s.aL ∧ (act a s).bL = s.bL)
    (hp : ∀ s t : State, s.phase = t.phase → (act a s).phase = (act a t).phase)
    (ho : ∀ s t : State, s.oe = t.oe → (act a s).oe = (act a t).oe)
    (hq : ∀ s t : State, Abreast i s t s t → P s t → Q (act a s) (act a t)) : Twice i P [a] Q :=
  have hw : ∀ s, Went 0 seg s (act a s) := fun s =>
    have ⟨h1, h2, h3, h4, h5, h6⟩ := hkeep s
    .unasked (hlog s) h1 h2 h3 h4 h5 h6
  twice_act fun s t hb h hP => Goes.went h hb (hw s) (hw t) (hp s t h.phase) (ho s t h.oe) (hq s t h hP)

/-- `phase <- p` for both. -/
theorem twice_enter {ph : Phase} (hR : ∀ s t s' t' : State, R s t → s'.buf = s.buf → s'.picks = s.picks →
    t'.buf = t.buf → t'.picks = t.picks → R s' t') : Twice i R [.enter ph] R :=
  twice_unasked (seg := []) (fun _ => rfl) (fun _ => ⟨rfl, rfl, rfl, rfl, rfl, rfl⟩) (fun _ _ _ => rfl) (fun _ _ => id)
    fun _ _ _ hr => hR _ _ _ _ hr rfl rfl rfl rfl

theorem twice_driveLow : Twice i P [.driveLow] (fun _ _ => True) :=
  twice_unasked (seg := [.low]) (fun _ => rfl) (fun _ => ⟨rfl, rfl, rfl, rfl, rfl, rfl⟩) (fun _ _ => id)
    (fun _ _ _ => rfl) fun _ _ _ _ => trivial

theorem twice_release : Twice i P [.release] (fun _ _ => True) :=
  twice_unasked (seg := [.rel]) (fun _ => rfl) (fun _ => ⟨rfl, rfl, rfl, rfl, rfl, rfl⟩) (fun _ _ => id)
    (fun _ _ _ => rfl) fun _ _ _ _ => trivial

/-- The bit to write is an operand's (R94). -/
theorem twice_bitFromA (h1 : i.form ≠ .n) (h2 : i.form ≠ .s) :
    Twice i P [.bitFromA] (fun s t => s.bit = t.bit) :=
  twice_unasked (seg := []) (fun _ => rfl) (fun _ => ⟨rfl, rfl, rfl, rfl, rfl, rfl⟩) (fun _ _ => id) (fun _ _ => id)
    fun _ _ h _ => congrArg writeValue (h.latchA h1 h2)

/-- A result register takes what both have come to (R64). -/
theorem twice_resultBit : Twice i (fun s t => s.bit = t.bit) [.resultBit] (fun s t => s.res0 = t.res0) :=
  twice_unasked (seg := []) (fun _ => rfl) (fun _ => ⟨rfl, rfl, rfl, rfl, rfl, rfl⟩) (fun _ _ => id) (fun _ _ => id)
    fun _ _ _ hb => congrArg (fun b => Content.held (zextBit b)) hb

theorem twice_resultByte : Twice i (fun s t => s.sr = t.sr) [.resultByte] (fun s t => s.res0 = t.res0) :=
  twice_unasked (seg := []) (fun _ => rfl) (fun _ => ⟨rfl, rfl, rfl, rfl, rfl, rfl⟩) (fun _ _ => id) (fun _ _ => id)
    fun _ _ _ hb => congrArg Content.held hb

theorem twice_resultCrc (hi : i.form = .ab) : Twice i P [.resultCrc] (fun s t => s.res0 = t.res0) :=
  twice_unasked (seg := []) (fun _ => rfl) (fun _ => ⟨rfl, rfl, rfl, rfl, rfl, rfl⟩) (fun _ _ => id) (fun _ _ => id)
    fun _ _ h _ =>
      congrArg₂ (fun a b => Content.held (crc8Update a b)) (h.latchA (by simp [hi]) (by simp [hi])) (h.latchB hi)

/-- `BUF` holds the same nine bytes in both (R46). -/
def SameImage (s t : State) : Prop := ∃ img, s.buf = heldImage img ∧ t.buf = heldImage img

theorem SameImage.image {s t : State} (h : SameImage s t) : s.image = t.image := by
  obtain ⟨img, hs, ht⟩ := h
  rw [image_of_held hs, image_of_held ht]

theorem SameImage.buf {s t : State} (h : SameImage s t) : s.buf = t.buf := by
  obtain ⟨img, hs, ht⟩ := h
  rw [hs, ht]

theorem twice_resultTemperature :
    Twice i SameImage [.resultTemperature] (fun s t => s.res0 = t.res0 ∧ s.res1 = t.res1 ∧ s.buf = t.buf) :=
  twice_unasked (seg := []) (fun _ => rfl) (fun _ => ⟨rfl, rfl, rfl, rfl, rfl, rfl⟩) (fun _ _ => id) (fun _ _ => id)
    fun _ _ _ hi => by
      obtain ⟨img, hs, ht⟩ := hi
      simp [act, image_of_held hs, image_of_held ht, hs, ht]

/-- The new resolution field is an operand (R127). -/
theorem twice_setConfig (hi : i.form = .ab) : Twice i SameImage [.setConfig] SameImage :=
  twice_unasked (seg := []) (fun _ => rfl) (fun _ => ⟨rfl, rfl, rfl, rfl, rfl, rfl⟩) (fun _ _ => id) (fun _ _ => id)
    fun s t h hm => by
      have ha := h.latchA (by simp [hi]) (by simp [hi])
      obtain ⟨img, hs, ht⟩ := hm
      refine ⟨img.set 4 (withResolution img[4] (resolutionOperand s.aL)), ?_, ?_⟩
      · simp [act, setConfig, image_of_held hs, hs, heldImage]
      · simp [act, setConfig, image_of_held ht, ht, heldImage, ha]

/-- A sample answers both alike: both lines are low, or the environment is asked (R82). -/
theorem twice_sample : Twice i P [.sample] (fun s t => s.bit = t.bit) :=
  twice_act fun s t hb h _ => by
    cases ho : s.oe with
    | true =>
      have ho' : t.oe = true := h.oe.symm.trans ho
      have hw : ∀ u : State, u.oe = true → Went 0 [.sampled false] u (sampleLine u) := fun u hu => by
        apply Went.unasked <;> simp [sampleLine, lineLevel, afterSample, hu]
      exact Goes.went h hb (hw s ho) (hw t ho') (by simp [act, sampleLine, h.phase]) (by simp [act, sampleLine, ho, ho'])
        (by simp [act, sampleLine, lineLevel, ho, ho'])
    | false =>
      have ho' : t.oe = false := h.oe.symm.trans ho
      have hl : ∀ u : State, u.oe = false → lineLevel u = answer u := fun u hu => by
        rw [answer, show ({ u with oe := false } : State) = u by rw [← hu]]
      have hw : ∀ u : State, u.oe = false → Went 1 [.sampled (answer u)] u (sampleLine u) := fun u hu => by
        simp only [sampleLine, hl u hu, afterSample_released u hu]
        exact ⟨rfl, rfl, rfl, rfl, rfl, rfl, rfl⟩
      exact Goes.went h hb (hw s ho) (h.answer ▸ hw t ho') (by simp [act, sampleLine, h.phase])
        (by simp [act, sampleLine, ho, ho']) (by simp [act, sampleLine, hl s ho, hl t ho', h.answer])

/-- The end of an operation whose results are the same. -/
theorem twice_succeed (hr : ∀ s t, P s t → SameResults i s t) : Twice i P [.succeed] (fun _ _ => True) :=
  twice_act fun s t _ h hp => Goes.succeed h (hr s t hp)

theorem twice_checkPresence : Twice i (fun s t => s.bit = t.bit) [.checkPresence] (fun _ _ => True) :=
  twice_act fun _ _ hb h hbit => Goes.failUnless _ h hb (by rw [hbit]) trivial

theorem twice_checkScratchpad : Twice i SameImage [.checkScratchpad] SameImage :=
  twice_act fun s t hb h hm => by
    simp only [act, checkScratchpad]
    cases Config.spadCrcEn with
    | false => exact Goes.stay h hb hm
    | true =>
      have hc : Abreast i s t { s with crcAcc := residue s.image.toList } { t with crcAcc := residue t.image.toList } :=
        { h with }
      exact Goes.failUnless .scratchpadCrc hc hb (by rw [hm.image]) hm

/-- The fast path is taken in both or in neither (R127). -/
theorem twice_succeedIfSame (hi : i.form = .ab) (hr : ∀ s t, SameImage s t → SameResults i s t) :
    Twice i SameImage [.succeedIfSame] SameImage :=
  twice_act fun s t hb h hm => by
    simp only [act, ← hm.image, ← h.latchA (by simp [hi]) (by simp [hi])]
    split
    · exact Goes.succeed h (hr s t hm)
    · exact Goes.stay h hb hm

/-- The copy to EEPROM is asked for in both or in neither (R127). -/
theorem twice_succeedUnlessPersist (hi : i.form = .ab) (hr : ∀ s t, SameImage s t → SameResults i s t) :
    Twice i SameImage [.succeedUnlessPersist] SameImage :=
  twice_act fun s t hb h hm => by
    simp only [act, ← h.latchB hi]
    split
    · exact Goes.stay h hb hm
    · exact Goes.succeed h (hr s t hm)

/-! The procedures. -/

/-- `reset()`: the presence sample is the same in both (R100). -/
theorem twice_busReset : Twice i P busReset (fun s t => s.bit = t.bit) := by
  intro s t hb h _
  rw [runActs_busReset, runActs_busReset]
  exact Goes.went h hb (n := 1) (seg := (resetTrace (answer s)).reverse) ⟨rfl, rfl, rfl, rfl, rfl, rfl, rfl⟩
    ⟨by rw [← h.answer]; rfl, rfl, rfl, rfl, rfl, rfl, rfl⟩ rfl rfl h.answer.symm

/-- `read_bit()` (R91). -/
theorem twice_readSlot : Twice i P readSlot (fun s t => s.bit = t.bit) := by
  intro s t hb h _
  rw [runActs_readSlot s hb, runActs_readSlot t (h.busy.trans hb)]
  exact Goes.went h hb (n := 1) (seg := (readSlotTrace (answer s)).reverse) ⟨rfl, rfl, rfl, rfl, rfl, rfl, rfl⟩
    ⟨by rw [← h.answer], rfl, rfl, rfl, rfl, rfl, rfl⟩ h.phase rfl h.answer.symm

/-- `write_bit(v)` (R90). -/
theorem twice_writeSlot : Twice i (fun s t => s.bit = t.bit) writeSlot (fun _ _ => True) := by
  intro s t hb h hbit
  rw [runActs_writeSlot s hb, runActs_writeSlot t (h.busy.trans hb)]
  exact Goes.went h hb (seg := (writeSlotTrace s.bit).reverse) (.unasked rfl rfl rfl rfl rfl rfl rfl)
    (.unasked (by rw [hbit]) rfl rfl rfl rfl rfl rfl) h.phase rfl trivial

/-- The byte of a single transfer is an operand's (R96). -/
theorem twice_sendArgA (h1 : i.form ≠ .n) (h2 : i.form ≠ .s) :
    Twice i P (sendByte .argA) (fun _ _ => True) := by
  intro s t hb h _
  rw [runActs_sendByte .argA s hb fun _ => rfl, runActs_sendByte .argA t (h.busy.trans hb) fun _ => rfl]
  exact Goes.went h hb (seg := (writeByteTrace s.aL).reverse) (.unasked rfl rfl rfl rfl rfl rfl rfl)
    (.unasked (by rw [h.latchA h1 h2]; rfl) rfl rfl rfl rfl rfl rfl) h.phase rfl trivial

/-- A single byte read (R97). -/
theorem twice_receiveByte : Twice i P receiveByte (fun s t => s.sr = t.sr) := by
  intro s t hb h _
  obtain ⟨x, hx⟩ := exists_byte (s.upcoming 8) (upcoming_length 8 s)
  rw [runActs_receiveByte x s hb hx.symm, runActs_receiveByte x t (h.busy.trans hb) ((h.upcoming 8).trans hx.symm)]
  exact Goes.went h hb (n := 8) (seg := (readByteTrace x).reverse) ⟨rfl, rfl, rfl, rfl, rfl, rfl, rfl⟩
    ⟨rfl, rfl, rfl, rfl, rfl, rfl, rfl⟩ h.phase rfl rfl

/-- The nine bytes of a scratchpad (R121). -/
theorem twice_readImage : Twice i P readImage SameImage := by
  intro s t hb h _
  obtain ⟨img, himg⟩ := exists_bytes 9 (s.upcoming 72) (upcoming_length 72 s)
  rw [readImage, runActs_nineBytes img s hb himg.symm,
    runActs_nineBytes img t (h.busy.trans hb) ((h.upcoming 72).trans himg.symm)]
  exact Goes.went h hb (n := 72) (seg := (img.toList.flatMap readByteTrace).reverse) ⟨rfl, rfl, rfl, rfl, rfl, rfl, rfl⟩
    ⟨rfl, rfl, rfl, rfl, rfl, rfl, rfl⟩ h.phase rfl ⟨img, rfl, rfl⟩

/-- The three bytes of a scratchpad write (R122). -/
theorem runActs_writeImage (s : State) (hb : s.busy = true) :
    runActs writeImage s =
      { s with oe := false, timer := 0, bit := (configNow s).getLsbD 7, sr := 0, bitcnt := 0, bytecnt := 0
               picks := s.picks + s.buf[2].drawn + s.buf[3].drawn + s.buf[4].drawn
               log := (writeByteTrace (highNow s) ++ writeByteTrace (lowNow s) ++ writeByteTrace (configNow s)).reverse
                 ++ s.log } := by
  simp only [writeImage, List.flatMap_cons, List.flatMap_nil, List.append_nil]
  have hb1 : (act (.transfer 3) s).busy = true := hb
  have hb2 := (byteWritten_busy (.buf 2) _).trans hb1
  have hb3 := (byteWritten_busy (.buf 3) _).trans hb2
  rw [runActs, if_pos hb1, runActs_then _ _ _ _ hb1 (runActs_byteWritten _ _ hb1) hb2,
    runActs_then _ _ _ _ hb2 (runActs_byteWritten _ _ hb2) hb3, runActs_byteWritten _ _ hb3]
  simp [act, startTransfer, byteWritten, Src.value, Src.drawn, highNow, lowNow, configNow]

/-- A scratchpad write reads the same three bytes in both (R61, R122). -/
def SameWritten (s t : State) : Prop := highNow s = highNow t ∧ lowNow s = lowNow t ∧ configNow s = configNow t

theorem SameImage.written {s t : State} (h : SameImage s t) : SameWritten s t := by
  obtain ⟨img, hs, ht⟩ := h
  obtain ⟨h1, h2, h3⟩ := written_of_held hs
  obtain ⟨k1, k2, k3⟩ := written_of_held ht
  exact ⟨h1.trans k1.symm, h2.trans k2.symm, h3.trans k3.symm⟩

theorem twice_writeImage (hw : ∀ s t, P s t → SameWritten s t)
    (hq : ∀ s t s' t' : State, P s t → s'.buf = s.buf → t'.buf = t.buf → Q s' t') : Twice i P writeImage Q := by
  intro s t hb h hP
  obtain ⟨h1, h2, h3⟩ := hw s t hP
  rw [runActs_writeImage s hb, runActs_writeImage t (h.busy.trans hb)]
  exact Goes.went h hb (.unasked rfl rfl rfl rfl rfl rfl rfl) (.unasked (by rw [h1, h2, h3]) rfl rfl rfl rfl rfl rfl)
    h.phase rfl (hq s t _ _ hP rfl rfl)

/-- A relation of what `BUF` gives to read. -/
def OfBuffer (R : State → State → Prop) : Prop := ∀ s t s' t' : State, R s t → s'.buf = s.buf → s'.picks = s.picks →
  t'.buf = t.buf → t'.picks = t.picks → R s' t'

/-- A selection whose command and family are the same in both: the same answers give the same failure, or the command is
sent in both. It does not touch `BUF` (R102). -/
theorem twice_select (hR : OfBuffer R) (cmd fam : Src) (any : Bool)
    (hc : ∀ s t, Abreast i s t s t → cmd.value s = cmd.value t) (hd : ∀ s, cmd.drawn s = 0)
    (hf : any = true ∨ ∀ s t, Abreast i s t s t → fam.value s = fam.value t) : Twice i R (select cmd fam any) R := by
  intro s t hb h hr
  have hb' := h.busy.trans hb
  obtain ⟨bits, hbits⟩ : ∃ bits, s.upcoming 65 = answer s :: bits := ⟨_, upcoming_succ 64 s⟩
  cases ha : answer s with
  | true =>
    have h1 : s.upcoming 1 = [true] := by rw [upcoming_succ, ha]; rfl
    rw [runActs_select_noPresence _ _ _ s hb h1, runActs_select_noPresence _ _ _ t hb' ((h.upcoming 1).trans h1)]
    have hw : Abreast i s t (withoutPresence s) (withoutPresence t) :=
      h.went hb (n := 1) ⟨rfl, rfl, rfl, rfl, rfl, rfl, rfl⟩ ⟨rfl, rfl, rfl, rfl, rfl, rfl, rfl⟩ rfl rfl
    exact Goes.fail hw _
  | false =>
    obtain ⟨rom, hrom⟩ : ∃ rom : Vector Byte 8, bytesBits rom.toList = bits :=
      exists_bytes 8 bits (by simpa [upcoming_length] using (congrArg List.length hbits).symm)
    have hs : s.upcoming 65 = selectAnswers rom := by rw [hbits, ha, selectAnswers, hrom]
    have ht := (h.upcoming 65).trans hs
    have hw : Abreast i s t (withRom rom s) (withRom rom t) :=
      h.went hb (n := 65) ⟨rfl, rfl, rfl, rfl, rfl, rfl, rfl⟩ ⟨rfl, rfl, rfl, rfl, rfl, rfl, rfl⟩ rfl rfl
    by_cases hok : RomOk rom
    · by_cases hfam : any = true ∨ rom[0] = fam.value s
      · have hfam' : any = true ∨ rom[0] = fam.value t :=
          hf.elim .inl fun hv => hfam.imp_right fun e => e.trans (hv s t h)
        rw [runActs_select_ok cmd fam any rom s hb hs hok hd hfam, runActs_select_ok cmd fam any rom t hb' ht hok hd hfam',
          hc s t h]
        exact Goes.went h hb (n := 65) ⟨rfl, rfl, rfl, rfl, rfl, rfl, rfl⟩ ⟨rfl, rfl, rfl, rfl, rfl, rfl, rfl⟩ rfl rfl
          (hR _ _ _ _ hr rfl rfl rfl rfl)
      · obtain ⟨hany, hne⟩ := not_or.1 hfam
        obtain rfl : any = false := by simpa using hany
        have hv := hf.resolve_left hany s t h
        rw [runActs_select_family cmd fam rom s hb hs hok hne,
          runActs_select_family cmd fam rom t hb' ht hok (hv ▸ hne)]
        exact Goes.fail hw _
    · rw [runActs_select_romCrc _ _ _ rom s hb hs hok, runActs_select_romCrc _ _ _ rom t hb' ht hok]
      exact Goes.fail hw _

/-- A selection of U3 names no operand (R120). -/
theorem twice_selectDs (hR : OfBuffer R) (cmd : Instr) : Twice i R (selectDs cmd) R :=
  twice_select hR _ _ _ (fun _ _ _ => rfl) (fun _ => rfl) (.inr fun _ _ _ => rfl)

theorem ofBuffer_true : OfBuffer fun _ _ => True := fun _ _ _ _ _ _ _ _ _ => trivial

theorem ofBuffer_sameImage : OfBuffer SameImage := fun _ _ _ _ ⟨img, hs, ht⟩ h1 _ h2 _ => ⟨img, h1.trans hs, h2.trans ht⟩

theorem ofBuffer_sameWritten : OfBuffer SameWritten := fun s t s' t' ⟨h1, h2, h3⟩ hs hs' ht ht' => by
  simp only [SameWritten, highNow, lowNow, configNow, hs, hs', ht, ht']
  exact ⟨h1, h2, h3⟩

/-- `read_scratchpad()` (R121). -/
theorem twice_readScratchpad : Twice i (fun _ _ => True) readScratchpad SameImage :=
  (((twice_selectDs ofBuffer_true _).append (twice_enter ofBuffer_true)).append twice_readImage).append
    twice_checkScratchpad

/-- `write_scratchpad()` (R122). -/
theorem twice_writeScratchpad (hP : OfBuffer P) (hw : ∀ s t, P s t → SameWritten s t)
    (hq : ∀ s t s' t' : State, P s t → s'.buf = s.buf → t'.buf = t.buf → Q s' t') : Twice i P writeScratchpad Q :=
  ((twice_selectDs hP _).append (twice_enter hP)).append (twice_writeImage hw hq)

/-- `wait_conversion()`: the same listed answers end it, or not (R123). -/
theorem pollLoop_abreast (answers : List Bool) (hb : s.busy = true) (h : Abreast i s t s t) :
    Abreast i s t (pollLoop answers s).1 (pollLoop answers t).1 ∧ (pollLoop answers s).2 = (pollLoop answers t).2 := by
  induction answers generalizing s t with
  | nil => exact ⟨h, rfl⟩
  | cons b more ih =>
    have g : Goes i (fun s t => s.bit = t.bit) s t (runActs readSlot s) (runActs readSlot t) :=
      twice_readSlot (P := fun _ _ => True) s t hb h trivial
    have hb' : (runActs readSlot s).busy = true := by rw [runActs_readSlot s hb]; exact hb
    simp only [pollLoop, ← g.onward hb']
    split
    · exact ⟨g.toAbreast, rfl⟩
    · exact (ih hb' g.toAbreast.self).imp_left g.toAbreast.trans

/-! The operations. -/

theorem Goes.with_todo (g : Goes i (fun _ _ => True) s t s' t') (m m' : List Micro) :
    Goes i (fun _ _ => True) s t { s' with todo := m } { t' with todo := m' } where
  toAbreast := { g.toAbreast with }
  onward _ := trivial
  done hb hok := { g.done hb hok with }

/-- A straight operation, from its program. -/
theorem goes_straight (hp : Twice i P p (fun _ _ => True)) (hb : s.busy = true) (h : Abreast i s t s t) (hP : P s t) :
    Goes i (fun _ _ => True) s t (run (straight p) s) (run (straight p) t) := by
  rw [run_straight, run_straight]
  exact (hp s t hb h hP).with_todo [] []

/-- `READ_TEMPERATURE`: the poll of both ends at the same answer, or in neither (R123, R126). -/
theorem goes_readTemperature (hb : s.busy = true) (h : Abreast i s t s t) :
    Goes i (fun _ _ => True) s t (run (programOf .readTemperature) s) (run (programOf .readTemperature) t) := by
  have hconvert : Twice i (fun _ _ => True) (selectDs .convertT ++ [.enter .dataTransfer]) (fun _ _ => True) :=
    (twice_selectDs ofBuffer_true _).append (twice_enter ofBuffer_true)
  have hread : Twice i (fun _ _ => True) (readScratchpad ++ [.resultTemperature, .succeed]) (fun _ _ => True) :=
    twice_readScratchpad.append (twice_resultTemperature.append (q := [.succeed])
      (twice_succeed fun _ _ ⟨h0, h1, h2⟩ => ⟨fun _ => h0, fun _ => h1, fun _ => h2⟩))
  have g := hconvert s t hb h trivial
  rw [programOf, run_straight_append _ _ _ hb, run_straight_append _ _ _ (h.busy.trans hb), g.busy]
  generalize runActs (selectDs .convertT ++ [.enter .dataTransfer]) s = s₁ at g
  generalize runActs (selectDs .convertT ++ [.enter .dataTransfer]) t = t₁ at g
  by_cases hb₁ : s₁.busy = true
  · rw [if_pos hb₁, if_pos hb₁]
    obtain ⟨hpoll, hbit⟩ := pollLoop_abreast s₁.script hb₁ g.toAbreast.self
    have hb₂ := (pollLoop_keeps (I := fun _ => True) (fun _ _ _ => trivial) s₁.script s₁ hb₁ trivial).1
    simp only [run, ← g.script, ← hbit]
    refine Goes.after g.toAbreast ?_
    split
    · exact Goes.after hpoll (goes_straight hread hb₂ hpoll.self trivial)
    · exact (Goes.stay hpoll hb₂ trivial).with_todo _ _
  · rw [if_neg hb₁, if_neg hb₁]
    exact g.with_todo [] []

end

/-- An operation run from two states in which it was issued, with the same operands and the same environment (R22, R61). -/
theorem goes_programOf (i : Instr) {s t : State} (hb : s.busy = true) (h : Abreast i s t s t)
    (hw : i.form = .s → SameWritten s t) :
    Goes i (fun _ _ => True) s t (run (programOf i) s) (run (programOf i) t) := by
  cases i
  case driveLow =>
    exact goes_straight (twice_driveLow.append (twice_succeed fun _ _ _ => ⟨by simp, by simp, by simp⟩)) hb h
      (P := fun _ _ => True) trivial
  case release =>
    exact goes_straight (twice_release.append (twice_succeed fun _ _ _ => ⟨by simp, by simp, by simp⟩)) hb h
      (P := fun _ _ => True) trivial
  case sample =>
    exact goes_straight (twice_sample.append (twice_resultBit.append
      (twice_succeed fun _ _ h0 => ⟨fun _ => h0, by simp, by simp⟩))) hb h (P := fun _ _ => True) trivial
  case writeBit =>
    exact goes_straight (((twice_bitFromA (by decide) (by decide)).append twice_writeSlot).append
      (twice_succeed fun _ _ _ => ⟨by simp, by simp, by simp⟩)) hb h (P := fun _ _ => True) trivial
  case readBit =>
    exact goes_straight (twice_readSlot.append (twice_resultBit.append (q := [.succeed])
      (twice_succeed fun _ _ h0 => ⟨fun _ => h0, by simp, by simp⟩))) hb h (P := fun _ _ => True) trivial
  case readByte =>
    exact goes_straight (twice_receiveByte.append (twice_resultByte.append (q := [.succeed])
      (twice_succeed fun _ _ h0 => ⟨fun _ => h0, by simp, by simp⟩))) hb h (P := fun _ _ => True) trivial
  case reset =>
    exact goes_straight (twice_busReset.append (twice_checkPresence.append (q := [.succeed])
      (twice_succeed fun _ _ _ => ⟨by simp, by simp, by simp⟩))) hb h (P := fun _ _ => True) trivial
  case select =>
    have hsel := twice_select (i := .select) ofBuffer_true .argA .argB false
      (fun _ _ h => h.latchA (by decide) (by decide)) (fun _ => rfl) (.inr fun _ _ h => h.latchB rfl)
    exact goes_straight (hsel.append (twice_succeed fun _ _ _ => ⟨by simp, by simp, by simp⟩)) hb h trivial
  case selectAny =>
    have hsel := twice_select (i := .selectAny) ofBuffer_true .argA (.lit 0x00) true
      (fun _ _ h => h.latchA (by decide) (by decide)) (fun _ => rfl) (.inl rfl)
    exact goes_straight (hsel.append (twice_succeed fun _ _ _ => ⟨by simp, by simp, by simp⟩)) hb h trivial
  case crcUpdate =>
    exact goes_straight ((twice_resultCrc rfl).append
      (twice_succeed fun _ _ h0 => ⟨fun _ => h0, by simp, by simp⟩)) hb h (P := fun _ _ => True) trivial
  case readScratchpad =>
    exact goes_straight (twice_readScratchpad.append
      (twice_succeed fun _ _ hm => ⟨by simp, by simp, fun _ => hm.buf⟩)) hb h trivial
  case writeScratchpad =>
    have hwrite := twice_writeScratchpad (i := .writeScratchpad) ofBuffer_sameWritten (Q := fun _ _ => True)
      (fun _ _ => id) (fun _ _ _ _ _ _ _ => trivial)
    exact goes_straight (hwrite.append (twice_succeed fun _ _ _ => ⟨by simp, by simp, by simp⟩)) hb h (hw rfl)
  case readTemperature => exact goes_readTemperature hb h
  case setResolution =>
    have hr : ∀ s t, SameImage s t → SameResults .setResolution s t := fun _ _ hm => ⟨by simp, by simp, fun _ => hm.buf⟩
    have hread : Twice .setResolution (fun _ _ => True) (readScratchpad ++ [.succeedIfSame, .setConfig]) SameImage :=
      twice_readScratchpad.append ((twice_succeedIfSame rfl hr).append (q := [.setConfig]) (twice_setConfig rfl))
    have hwrite : Twice .setResolution SameImage writeScratchpad SameImage :=
      twice_writeScratchpad ofBuffer_sameImage (fun _ _ => SameImage.written)
        (fun _ _ _ _ ⟨img, hs, ht⟩ h1 h2 => ⟨img, h1.trans hs, h2.trans ht⟩)
    exact goes_straight ((((hread.append hwrite).append (twice_succeedUnlessPersist rfl hr)).append
      (twice_selectDs ofBuffer_sameImage _)).append (twice_succeed hr)) hb h trivial
  all_goals
    exact goes_straight ((twice_sendArgA (by decide) (by decide)).append
      (twice_succeed fun _ _ _ => ⟨by simp, by simp, by simp⟩)) hb h (P := fun _ _ => True) trivial

/-- The operand latch `a_l` takes what the form names: a wire code, or `ARG0` (R43, R61, R72). -/
theorem SameInputs.operandA {i : Instr} {s t : State} (h : SameInputs i s t) (h1 : i.form ≠ .n) (h2 : i.form ≠ .s) :
    (prepared i s).operandA = (prepared i t).operandA := by
  cases hi : i.form with
  | n => exact absurd hi h1
  | s => exact absurd hi h2
  | wire => rw [prepared_of_wire hi, prepared_of_wire hi]; rfl
  | a => rw [prepared_of_not_wire (by simp [hi]), prepared_of_not_wire (by simp [hi]), h.argA (.inl hi)]
  | ab => rw [prepared_of_not_wire (by simp [hi]), prepared_of_not_wire (by simp [hi]), h.argA (.inr hi)]

/-- The issue of an operation in two states that share its inputs (R22, R43). -/
theorem SameInputs.issued {i : Instr} {s t : State} (h : SameInputs i s t) (opcode : Byte) (first : Phase)
    (m : List Micro) : Abreast i (issued opcode first m (prepared i s)) (issued opcode first m (prepared i t))
      (issued opcode first m (prepared i s)) (issued opcode first m (prepared i t)) where
  trace := ⟨[], rfl, rfl⟩
  phase := rfl
  ok := rfl
  oe := h.oe
  cause := rfl
  script := h.script
  draws := h.draws
  open_not_ok _ := rfl
  latchA := h.operandA
  latchB hi := by
    rw [prepared_of_not_wire (by simp [hi]), prepared_of_not_wire (by simp [hi])]
    exact h.argB hi

/-- The bytes of a scratchpad write are read after the latches (R122). -/
theorem SameInputs.written {i : Instr} {s t : State} (h : SameInputs i s t) (hi : i.form = .s) (opcode : Byte)
    (first : Phase) (m : List Micro) :
    SameWritten (Machine.issued opcode first m (prepared i s)) (Machine.issued opcode first m (prepared i t)) := by
  rw [prepared_of_not_wire (by simp [hi]), prepared_of_not_wire (by simp [hi])]
  exact h.buffer hi

/-- Settles O55: the operation is run side by side from the two states. -/
theorem noStateSurvivesAnOperation : Obligations.NoStateSurvivesAnOperation := by
  intro i s t h
  obtain ⟨opcode, first, hf, hx⟩ := exec_of_idle i
  have g := goes_programOf i (issued_busy opcode first (programOf i) (prepared i s) hf) (h.issued opcode first (programOf i))
    fun hi => h.written hi opcode first (programOf i)
  obtain ⟨seg, hs, ht⟩ := g.trace
  have hr : (run (programOf i) (issued opcode first (programOf i) (prepared i s))).ok = true → SameResults i _ _ :=
    fun hok => g.done (Bool.eq_false_iff.2 fun hb => by simp [g.open_not_ok hb] at hok) hok
  refine ⟨_, _, seg.reverse, hx s h.idle_left, hx t h.idle_right, ?_, ?_, g.phase, g.ok, g.oe, g.cause, g.script, g.draws,
    fun hok => (hr hok).res0, fun hok => (hr hok).res1, fun hok => (hr hok).buf⟩
  · rw [State.trace, hs, List.reverse_append]; rfl
  · rw [State.trace, ht, List.reverse_append]; rfl

end Sys2Proof.Machine

/-!
PROOFS. The phases of a session, step by step (10_state.md rule R20).
-/

namespace Sys2Proof.Machine

/-! The phases of a session, step by step (R20, R100, R102). -/

/-- A program that enters no phase, and is not in the middle of a wait. -/
def InOnePhase (p : List Act) : Prop := .counting ∉ p ∧ ∀ q, .enter q ∉ p

theorem InOnePhase.append {p q : List Act} (hp : InOnePhase p) (hq : InOnePhase q) : InOnePhase (p ++ q) :=
  ⟨by simp [hp.1, hq.1], fun ph => by simp [hp.2 ph, hq.2 ph]⟩

theorem inOnePhase_of_isTransfer {p : List Act} (hp : p.all Act.isTransfer = true) : InOnePhase p :=
  ⟨fun h => Bool.false_ne_true (List.all_eq_true.1 hp _ h), fun _ h => Bool.false_ne_true (List.all_eq_true.1 hp _ h)⟩

/-- Steps counted from a later state. -/
theorem phase_from {s : State} {a k : Nat} {ph : Phase} (h : ∀ m, m < k → (tick^[m] (tick^[a] s)).phase = ph) (n : Nat)
    (h1 : a ≤ n) (h2 : n < a + k) : (tick^[n] s).phase = ph := by
  obtain ⟨m, rfl⟩ : ∃ m, n = m + a := ⟨n - a, by omega⟩
  rw [Function.iterate_add_apply]
  exact h m (by omega)

/-- A micro-action that is no wait takes one step. -/
theorem tick_act {a : Act} {rest : List Micro} {s : State} (hb : s.busy = true) (ht : s.todo = .one a :: rest)
    (ha : a ≠ .counting) (hw : waitLength a s = none) :
    tick s = { act a s with todo := if (act a s).busy then rest else [] } := by
  rw [tick_one a rest s hb ht, tickAct, if_neg ha, hw]

/-- The reset pulse without the entry of its phase (R100). -/
def pulse : List Act :=
  [.driveLow, .wait Config.tRstl, .release, .wait Config.tPds, .sample, .wait (Config.tRsth - Config.tPds)]

/-- What is to do in the phase `ResetPresence`: the pulse and its check (R100, R102). -/
def pulsePart : List Act := pulse ++ [.checkPresence]

/-- What is to do in the phase `RomReadValidate`: the command Read ROM, the eight bytes, the two checks (R102). -/
def romPart (fam : Src) : List Act := sendByte (.lit (encode .readRom)) ++ readRomCode ++ [.checkRom, .checkFamily fam]

/-- A selection with a family check, phase by phase (R20, R102). -/
theorem select_phases (cmd fam : Src) : select cmd fam false = .enter .resetPresence ::
    (pulsePart ++ .enter .romReadValidate :: (romPart fam ++ .enter .commandIssue :: sendByte cmd)) := by
  simp [select, busReset, pulsePart, pulse, romPart]

theorem inOnePhase_romPart (fam : Src) : InOnePhase (romPart fam) :=
  ((inOnePhase_of_isTransfer (isTransfer_sendByte _)).append (inOnePhase_of_isTransfer isTransfer_readRomCode)).append
    ⟨by simp, by simp⟩

/-- The reset pulse that a device answers (R100). -/
theorem runActs_pulsePart (s : State) (hb : s.busy = true) (hp : s.phase = .resetPresence) (ha : answer s = false) :
    runActs pulsePart s = afterBusReset s := by
  have he : act (.enter .resetPresence) s = s := by rw [act, ← hp]
  have hpulse : runActs pulse s = afterBusReset s := by
    rw [← runActs_busReset s, show busReset = .enter .resetPresence :: pulse from rfl, runActs, he, if_pos hb]
  rw [pulsePart, runActs_then _ _ _ _ hb hpulse rfl]
  simp [runActs, act, checkPresence, failUnless, show (afterBusReset s).bit = false from ha]

/-- The ROM code read and accepted (R102). -/
theorem runActs_romPart (fam : Src) (rom : Vector Byte 8) (s : State) (hb : s.busy = true)
    (hs : s.upcoming 64 = bytesBits rom.toList) (hr : RomOk rom) (hf : rom[0] = fam.value s) :
    runActs (romPart fam) s =
      { consume 64 s with oe := false, timer := 0, bit := rom[7].getLsbD 7, sr := rom[7], bitcnt := 0, bytecnt := 0
                          rom := rom, crcAcc := residue rom.toList
                          log := (writeByteTrace 0x33 ++ rom.toList.flatMap readByteTrace).reverse ++ s.log } := by
  have hsent : (sentByte (encode .readRom) s).busy = true := hb
  have hv : ∀ t : State, t.aL = s.aL → t.bL = s.bL → t.buf = s.buf → t.picks = s.picks → fam.value t = rom[0] :=
    fun t h1 h2 h3 h4 => (value_congr fam s t h1 h2 h3 h4).trans hf.symm
  have hsend : runActs (sendByte (.lit (encode .readRom))) s = sentByte (encode .readRom) s :=
    runActs_sendByte _ s hb fun _ => rfl
  have hread := runActs_readRomCode rom (sentByte (encode .readRom) s) hsent hs
  rw [romPart, List.append_assoc, runActs_then _ _ _ _ hb hsend hsent, runActs_then _ _ _ _ hsent hread hsent]
  simp [runActs, act, checkRom, checkFamily, failUnless, show residue rom.toList = 0#8 from hr, hv, sentByte, consume,
    encode, State.busy, (busy_iff s).1 hb]

section
variable {cmd fam : Src} {rom : Vector Byte 8} {u : State}

/-- The phase `ResetPresence`, from its first step until the reset waveform stands on the trace. -/
theorem ticks_pulsePart {rest : List Micro} (hb : u.busy = true) (hp : u.phase = .resetPresence)
    (ht : u.todo = .one (.enter .resetPresence) :: (straight pulsePart ++ .one (.enter .romReadValidate) :: rest))
    (ha : answer u = false) :
    ∃ a, 0 < a ∧ (∀ n, n < a → (tick^[n] u).phase = .resetPresence) ∧
      tick^[a] u = { afterBusReset u with phase := .romReadValidate, todo := rest } := by
  have henter : act (.enter .resetPresence) u = u := by rw [act, ← hp]
  have hfirst := tick_act hb ht (by simp) rfl
  rw [henter, if_pos hb] at hfirst
  generalize hu1 : ({ u with todo := straight pulsePart ++ .one (.enter .romReadValidate) :: rest } : State) = u1 at hfirst
  have hrun : runActs pulsePart u1 = afterBusReset u1 := by
    subst hu1
    exact runActs_pulsePart _ hb hp ha
  obtain ⟨n, -, hn, hphase⟩ := ticks_to_phase pulsePart (by simp [pulsePart, pulse]) (by simp [pulsePart, pulse])
    .romReadValidate (by simp) rest u1 (by subst hu1; exact hb) (by subst hu1; rfl) (by rw [hrun]; rfl)
  refine ⟨n + 1, by omega, fun m hm => ?_, ?_⟩
  · cases m with
    | zero => exact hp
    | succ m =>
      rw [Function.iterate_succ_apply, hfirst, hphase m (by omega)]
      subst hu1
      exact hp
  · rw [Function.iterate_succ_apply, hfirst, hn, hrun]
    subst hu1
    rfl

/-- The phase `RomReadValidate`, until the eight ROM bytes stand on the trace. -/
theorem ticks_romPart {rest : List Micro} (hb : u.busy = true)
    (ht : u.todo = straight (romPart fam) ++ .one (.enter .commandIssue) :: rest)
    (hs : u.upcoming 64 = bytesBits rom.toList) (hr : RomOk rom) (hf : rom[0] = fam.value u) :
    ∃ b, 0 < b ∧ (∀ n, n < b → (tick^[n] u).phase = u.phase) ∧
      tick^[b] u = { runActs (romPart fam) u with phase := .commandIssue, todo := rest } := by
  have hbusy : (runActs (romPart fam) u).busy = true := by
    rw [runActs_romPart fam rom u hb hs hr hf]
    exact hb
  obtain ⟨hc, hp⟩ := inOnePhase_romPart fam
  obtain ⟨n, hn0, hn, hphase⟩ := ticks_to_phase (romPart fam) hc hp .commandIssue (by simp) rest u hb ht hbusy
  exact ⟨n, hn0, hphase, hn⟩

/-- The phase `CommandIssue`, until the command byte stands on the trace. -/
theorem ticks_command {rest : List Micro} (hb : u.busy = true) (ht : u.todo = straight (sendByte cmd) ++ rest)
    (hd : ∀ t, cmd.drawn t = 0) :
    ∃ k, (∀ n, n ≤ k → (tick^[n] u).phase = u.phase) ∧
      tick^[k] u = { sentByte (cmd.value u) u with todo := rest } := by
  obtain ⟨hc, hp⟩ := inOnePhase_of_isTransfer (isTransfer_sendByte cmd)
  obtain ⟨k, hk, hphase⟩ := ticks_acts (sendByte cmd) hc rest u hb ht
  rw [runActs_sendByte cmd u hb hd, if_pos (show (sentByte (cmd.value u) u).busy = true from hb)] at hk
  refine ⟨k, fun n hn => ?_, hk⟩
  obtain hlt | rfl := Nat.lt_or_eq_of_le hn
  · exact (hphase hp n hlt).1
  · rw [hk]
    rfl

/-- The phases of a selection that succeeds (R20, R102). -/
theorem ticks_select {rest : List Micro} (hb : u.busy = true) (hp : u.phase = .resetPresence)
    (ht : u.todo = straight (select cmd fam false) ++ rest) (hs : u.upcoming 65 = selectAnswers rom) (hr : RomOk rom)
    (hf : rom[0] = fam.value u) (hd : ∀ t, cmd.drawn t = 0) :
    ∃ a b k, 0 < a ∧ a < b ∧ (∀ n, n < a → (tick^[n] u).phase = .resetPresence) ∧
      (tick^[a] u).trace = u.trace ++ resetTrace false ∧
      (∀ n, a ≤ n → n < b → (tick^[n] u).phase = .romReadValidate) ∧
      (tick^[b] u).trace = u.trace ++ romTrace rom ∧
      (∀ n, b ≤ n → n < b + (k + 1) → (tick^[n] u).phase = .commandIssue) ∧
      tick^[b + k] u = { selected rom (cmd.value u) u with todo := rest } := by
  rw [upcoming_succ] at hs
  obtain ⟨ha, hs'⟩ := List.cons.inj hs
  rw [select_phases] at ht
  obtain ⟨a, ha0, hphase1, h1⟩ := ticks_pulsePart (rest := straight (romPart fam) ++ .one (.enter .commandIssue) ::
    (straight (sendByte cmd) ++ rest)) hb hp (by rw [ht]; simp [straight]) ha
  have hf' : rom[0] = fam.value (tick^[a] u) := hf.trans (value_congr fam u (tick^[a] u) (by rw [h1]; rfl) (by rw [h1]; rfl)
    (by rw [h1]; rfl) (by rw [h1]; rfl)).symm
  have hb1 : (tick^[a] u).busy = true := by rw [h1]; rfl
  have hs1 : (tick^[a] u).upcoming 64 = bytesBits rom.toList := by rw [h1]; exact hs'
  obtain ⟨b, hb0, hphase2, h2⟩ := ticks_romPart hb1 (by rw [h1]) hs1 hr hf'
  have h2' : tick^[b + a] u =
      { withRom rom u with phase := .commandIssue, todo := straight (sendByte cmd) ++ rest } := by
    rw [Function.iterate_add_apply, h2, runActs_romPart fam rom _ hb1 hs1 hr hf', h1]
    simp [withRom, afterBusReset, consume, ha, romTrace, drawn_add]
  obtain ⟨k, hphase3, h3⟩ := ticks_command (u := tick^[b + a] u) (cmd := cmd) (by rw [h2']; rfl) (by rw [h2']) hd
  refine ⟨a, b + a, k, ha0, by omega, hphase1, by rw [h1]; simp [State.trace, afterBusReset, ha],
    fun n hn hn' => phase_from (fun m hm => ?_) n hn (show n < a + b by omega), by rw [h2']; simp [State.trace, withRom],
    fun n hn hn' => phase_from (fun m hm => ?_) n hn hn', ?_⟩
  · rw [hphase2 m hm, h1]
  · rw [hphase3 m (by omega), h2']
  · rw [Nat.add_comm, Function.iterate_add_apply, h3, h2']
    have hv : ∀ t : State, t.aL = u.aL → t.bL = u.bL → t.buf = u.buf → t.picks = u.picks → cmd.value t = cmd.value u :=
      fun t => value_congr cmd u t
    simp [hv, withRom, sentByte, selected, selectTrace, consume, show residue rom.toList = 0 from hr]

/-- From `u` on, a selection that succeeds leaves `ResetPresence` after `a` steps, `RomReadValidate` after `b` steps and
`CommandIssue`, for the phase `last`, after `c` steps, each when its part of the session stands on the trace. -/
structure Passes (u : State) (rom : Vector Byte 8) (cmdByte : Byte) (last : Phase) (a b c : Nat) : Prop where
  pos : 0 < a
  lt_b : a < b
  lt_c : b < c
  phaseReset : ∀ n, n < a → (tick^[n] u).phase = .resetPresence
  traceReset : (tick^[a] u).trace = u.trace ++ resetTrace false
  phaseRom : ∀ n, a ≤ n → n < b → (tick^[n] u).phase = .romReadValidate
  traceRom : (tick^[b] u).trace = u.trace ++ romTrace rom
  phaseCommand : ∀ n, b ≤ n → n < c → (tick^[n] u).phase = .commandIssue
  traceCommand : (tick^[c] u).trace = u.trace ++ selectTrace rom cmdByte
  phaseLast : (tick^[c] u).phase = last

/-- The phases of a selection that succeeds, and the micro-action behind it, which leaves the last of them (R20). -/
theorem ticks_session {x : Act} {rest : List Micro} {cmdByte : Byte} {last : Phase} (hb : u.busy = true)
    (hp : u.phase = .resetPresence) (ht : u.todo = straight (select cmd fam false) ++ .one x :: rest)
    (hs : u.upcoming 65 = selectAnswers rom) (hr : RomOk rom) (hf : rom[0] = fam.value u) (hd : ∀ t, cmd.drawn t = 0)
    (hcmd : cmd.value u = cmdByte) (hx : x = .enter last ∨ x = .succeed ∧ last = .idle) :
    ∃ a b c, Passes u rom cmdByte last a b c ∧ (last ≠ .idle → (tick^[c] u).todo = rest) := by
  obtain ⟨a, b, k, ha0, hab, hphase1, htrace1, hphase2, htrace2, hphase3, h3⟩ := ticks_select hb hp ht hs hr hf hd
  have hlast : tick^[b + (k + 1)] u = { act x (selected rom cmdByte u) with
      todo := if (act x (selected rom cmdByte u)).busy then rest else [] } := by
    have hnowait : x ≠ .counting ∧ ∀ t, waitLength x t = none := by
      obtain rfl | ⟨rfl, -⟩ := hx <;> exact ⟨by simp, fun _ => rfl⟩
    rw [← Nat.add_assoc, Function.iterate_succ_apply', h3, hcmd,
      tick_act (a := x) (rest := rest) (by rfl) rfl hnowait.1 (hnowait.2 _), act_with_todo]
    rfl
  have hend : (act x (selected rom cmdByte u)).phase = last ∧
      (act x (selected rom cmdByte u)).log = (selected rom cmdByte u).log := by
    obtain rfl | ⟨rfl, rfl⟩ := hx <;> exact ⟨rfl, rfl⟩
  refine ⟨a, b, b + (k + 1), ⟨ha0, hab, by omega, hphase1, htrace1, hphase2, htrace2, hphase3, ?_, ?_⟩, fun hl => ?_⟩
  · rw [hlast, State.trace, hend.2]
    simp [State.trace, selected]
  · rw [hlast, hend.1]
  · rw [hlast, if_pos ((busy_iff _).2 (hend.1.symm ▸ hl))]

/-- A straight program that ends in `succeed()` and enters no phase, to the end of the operation. -/
theorem ticks_to_idle {p : List Act} (hp : InOnePhase p) (hb : u.busy = true) (ht : u.todo = straight (p ++ [.succeed])) :
    ∃ d, 0 < d ∧ (∀ n, n < d → (tick^[n] u).phase = u.phase) ∧ (tick^[d] u).phase = .idle := by
  have hp' : InOnePhase (p ++ [.succeed]) := hp.append ⟨by simp, by simp⟩
  obtain ⟨d, hd, hphase⟩ := ticks_acts (p ++ [.succeed]) hp'.1 [] u hb (by rw [ht, List.append_nil])
  have hidle : (tick^[d] u).phase = .idle := by
    rw [hd, ← not_busy_iff]
    show (runActs (p ++ [.succeed]) u).busy = false
    rw [runActs_append p _ u hb, runActs_succeed]
    split
    · rfl
    next hn => exact Bool.eq_false_iff.2 hn
  refine ⟨d, Nat.pos_of_ne_zero fun h0 => (busy_iff u).1 hb ?_, fun n hn => (hphase hp'.2 n hn).1, hidle⟩
  subst h0
  exact hidle

/-- A session with one transfer of data stays in `DataTransfer` until it is over (R20, R121, R122). -/
theorem ticks_data {p : List Act} {c : Nat} (hp : InOnePhase p) (hphase : (tick^[c] u).phase = .dataTransfer)
    (ht : (tick^[c] u).todo = straight (p ++ [.succeed])) :
    ∃ d, c < d ∧ (∀ n, c ≤ n → n < d → (tick^[n] u).phase = .dataTransfer) ∧ (tick^[d] u).phase = .idle := by
  obtain ⟨d, hd0, hd, hidle⟩ := ticks_to_idle hp ((busy_iff _).2 (by rw [hphase]; simp)) ht
  refine ⟨c + d, by omega, phase_from fun m hm => (hd m hm).trans hphase, ?_⟩
  rw [Nat.add_comm, Function.iterate_add_apply]
  exact hidle

end

/-- The first session of an operation of U3 that goes on to a transfer of data (R120). -/
theorem passes_ds {i code : Instr} {rom : Vector Byte 8} {rest : List Micro} {s : State} {cmdByte : Byte} (h : Idle s)
    (hi : startOf i = issue (encode i) .resetPresence (programOf i))
    (hp : programOf i = straight (selectDs code) ++ .one (.enter .dataTransfer) :: rest)
    (hs : s.upcoming 65 = selectAnswers rom) (hr : DsRomOk rom) (hcmd : encode code = cmdByte) :
    ∃ a b c, Passes (startOf i s) rom cmdByte .dataTransfer a b c ∧ (startOf i s).trace = s.trace ∧
      (tick^[c] (startOf i s)).todo = rest := by
  rw [hi, issue_of_idle _ _ _ s h]
  obtain ⟨a, b, c, hpass, ht⟩ := ticks_session (u := issued (encode i) .resetPresence (programOf i) s)
    (cmd := .lit (encode code)) (fam := .lit Config.dsFamily) (rest := rest) rfl rfl hp hs hr.1 hr.2 (fun _ => rfl) hcmd
    (.inl rfl)
  exact ⟨a, b, c, hpass, rfl, ht (by simp)⟩

theorem programOf_readScratchpad : programOf .readScratchpad = straight (selectDs .readScratchpadCmd) ++
    .one (.enter .dataTransfer) :: straight ((readImage ++ [.checkScratchpad]) ++ [.succeed]) := by
  simp [programOf, straight, readScratchpad]

theorem programOf_writeScratchpad : programOf .writeScratchpad = straight (selectDs .writeScratchpadCmd) ++
    .one (.enter .dataTransfer) :: straight (writeImage ++ [.succeed]) := by
  simp [programOf, straight, writeScratchpad]

/-- Settles O46: the phases of the selection, and for a session with one transfer those of its data. -/
theorem sessionPassesItsPhases : Obligations.SessionPassesItsPhases := by
  intro s rom i cmd last h hs hr hfam hmem
  suffices hmain : ∃ a b c, Passes (startOf i s) rom cmd last a b c ∧ (startOf i s).trace = s.trace ∧
      (i = .readScratchpad ∨ i = .writeScratchpad → ∃ d, c < d ∧
        (∀ n, c ≤ n → n < d → (tick^[n] (startOf i s)).phase = .dataTransfer) ∧
        (tick^[d] (startOf i s)).phase = .idle) by
    obtain ⟨a, b, c, hp, htr, hd⟩ := hmain
    exact ⟨a, b, c, hp.pos, hp.lt_b, hp.lt_c, hp.phaseReset, htr ▸ hp.traceReset, hp.phaseRom, htr ▸ hp.traceRom,
      hp.phaseCommand, htr ▸ hp.traceCommand, hp.phaseLast, hd⟩
  simp only [List.mem_cons, Prod.mk.injEq, List.not_mem_nil, or_false] at hmem
  obtain ⟨rfl, rfl, rfl⟩ | ⟨rfl, rfl, rfl⟩ | ⟨rfl, rfl, rfl⟩ | ⟨rfl, rfl, rfl⟩ | ⟨rfl, rfl, rfl⟩ := hmem
  · obtain ⟨a, b, c, hp, htr, ht⟩ := passes_ds h rfl programOf_readScratchpad hs hr rfl
    have hdata : InOnePhase (readImage ++ [.checkScratchpad]) :=
      (inOnePhase_of_isTransfer isTransfer_readImage).append ⟨by simp, by simp⟩
    exact ⟨a, b, c, hp, htr, fun _ => ticks_data hdata hp.phaseLast ht⟩
  · obtain ⟨a, b, c, hp, htr, ht⟩ := passes_ds h rfl programOf_writeScratchpad hs hr rfl
    exact ⟨a, b, c, hp, htr, fun _ => ticks_data (inOnePhase_of_isTransfer isTransfer_writeImage) hp.phaseLast ht⟩
  · obtain ⟨a, b, c, hp, htr, -⟩ := passes_ds (i := .readTemperature) (code := .convertT) h rfl
      (by simp only [programOf, straight, List.map_append, List.append_assoc]; rfl) hs hr rfl
    exact ⟨a, b, c, hp, htr, by simp⟩
  · obtain ⟨a, b, c, hp, htr, -⟩ := passes_ds (i := .setResolution) (code := .readScratchpadCmd) h rfl
      (by simp only [programOf, readScratchpad, straight, List.map_append, List.append_assoc]; rfl) hs hr rfl
    exact ⟨a, b, c, hp, htr, by simp⟩
  · have hu : startOf .select s = issued (encode .select) .resetPresence (programOf .select) s := issue_of_idle _ _ _ s h
    obtain ⟨a, b, c, hp, -⟩ := ticks_session (u := startOf .select s) (cmd := .argA) (fam := .argB) (x := .succeed)
      (rest := []) (cmdByte := s.operandA) (last := .idle) (by rw [hu]; rfl) (by rw [hu]; rfl)
      (by rw [hu]; exact List.map_append) (by rw [hu]; exact hs) hr.1 (by rw [hu]; exact hr.2.trans (hfam rfl).symm)
      (fun _ => rfl) (by rw [hu]; rfl) (.inr ⟨rfl, rfl⟩)
    exact ⟨a, b, c, hp, by rw [hu]; rfl, by simp⟩

end Sys2Proof.Machine

/-!
PROOFS. Waiting for an operation comes to the state its steps come to (20_memory.md rules R43, R51, R54; 30_encoding.md
rule R72; 60_exceptions.md rule R148).
-/

namespace Sys2Proof.Machine

/-! The steps of the controller from one state to another. -/

/-- Stepped some number of times by the controller, the block comes from `s` to `t`. -/
def StepsTo (s t : State) : Prop := ∃ n, tick^[n] s = t

theorem StepsTo.refl (s : State) : StepsTo s s := ⟨0, rfl⟩

theorem StepsTo.trans {s t u : State} : StepsTo s t → StepsTo t u → StepsTo s u := by
  rintro ⟨m, rfl⟩ ⟨n, rfl⟩
  exact ⟨n + m, Function.iterate_add_apply tick n m s⟩

/-- A micro-action, a wait counted out (R86). -/
theorem stepsTo_act {a : Act} (ha : a ≠ .counting) (rest : List Micro) (s : State) (hb : s.busy = true) :
    StepsTo { s with todo := .one a :: rest } { act a s with todo := if (act a s).busy then rest else [] } := by
  obtain ⟨n, hn, -⟩ := ticks_act a ha rest { s with todo := .one a :: rest } hb rfl
  rw [act_with_todo] at hn
  exact ⟨n + 1, hn⟩

/-- One turn of the poll (R123). -/
theorem stepsTo_slot (rest : List Micro) (s : State) (hb : s.busy = true) :
    StepsTo { s with todo := .poll :: rest }
      { runActs readSlot s with todo := if (runActs readSlot s).bit then rest else .poll :: rest } := by
  obtain ⟨n, -, -, hn⟩ := poll_slot rest { s with todo := .poll :: rest } hb rfl
  rw [runActs_readSlot s hb]
  exact ⟨n, hn⟩

/-- The poll, for as many answers as are listed (R123). -/
theorem stepsTo_pollLoop (rest : List Micro) (answers : List Bool) (s : State) (hb : s.busy = true) :
    StepsTo { s with todo := .poll :: rest }
      { (pollLoop answers s).1 with todo := if (pollLoop answers s).2 then rest else .poll :: rest } := by
  induction answers generalizing s with
  | nil => exact .refl _
  | cons b more ih =>
    have hslot := stepsTo_slot rest s hb
    have hb' : (runActs readSlot s).busy = true := by rw [runActs_readSlot s hb]; exact hb
    rw [pollLoop]
    by_cases hbit : (runActs readSlot s).bit = true
    · rw [if_pos hbit] at hslot ⊢
      exact hslot
    · rw [if_neg hbit] at hslot ⊢
      exact hslot.trans (ih _ hb')

/-- The poll and what stands behind it, as far as the listed answers go (R123, R146). -/
theorem stepsTo_run_poll {rest : List Micro}
    (ih : ∀ s : State, s.busy = true → StepsTo { s with todo := rest } (run rest s)) (s : State) (hb : s.busy = true) :
    StepsTo { s with todo := .poll :: rest } (run (.poll :: rest) s) := by
  have hloop := stepsTo_pollLoop rest s.script s hb
  have hb' := (pollLoop_keeps (I := fun _ => True) (fun _ _ _ => trivial) s.script s hb trivial).1
  rw [run]
  dsimp only
  split
  next hend => rw [if_pos hend] at hloop; exact hloop.trans (ih _ hb')
  next hend => rw [if_neg hend] at hloop; exact hloop

/-- A program that does not start in the middle of a wait: its steps come to what it comes to at once (R51, R148). -/
theorem stepsTo_run (m : List Micro) (hm : .one .counting ∉ m) (s : State) (hb : s.busy = true) :
    StepsTo { s with todo := m } (run m s) := by
  induction m generalizing s with
  | nil => exact .refl _
  | cons x rest ih =>
    obtain ⟨hx, hrest⟩ := not_or.1 (List.mem_cons.not.1 hm)
    cases x with
    | one a =>
      have hact := stepsTo_act (fun e => hx (congrArg Micro.one e.symm)) rest s hb
      rw [run]
      split
      next hb' => rw [if_pos hb'] at hact; exact hact.trans (ih hrest _ hb')
      next hb' => rw [if_neg hb'] at hact; exact hact
    | poll => exact stepsTo_run_poll (ih hrest) s hb
    | pollTest =>
      have htest : StepsTo { s with todo := .pollTest :: rest } { s with todo := if s.bit then rest else .poll :: rest } :=
        ⟨1, tick_pollTest rest { s with todo := .pollTest :: rest } hb rfl⟩
      rw [run]
      split
      next hbit => rw [if_pos hbit] at htest; exact htest.trans (ih hrest s hb)
      next hbit => rw [if_neg hbit] at htest; exact htest.trans (stepsTo_run_poll (ih hrest) s hb)

/-! No program starts in the middle of a wait. -/

theorem mem_straight {a : Act} {p : List Act} : .one a ∈ straight p ↔ a ∈ p := by simp [straight]

theorem counting_notMem_of_isTransfer {p : List Act} (hp : p.all Act.isTransfer = true) : .counting ∉ p :=
  (inOnePhase_of_isTransfer hp).1

theorem counting_notMem_select (cmd fam : Src) (any : Bool) : .counting ∉ select cmd fam any := by
  have hsend := fun x => counting_notMem_of_isTransfer (isTransfer_sendByte x)
  have hrom := counting_notMem_of_isTransfer isTransfer_readRomCode
  cases any <;> simp [select, busReset, hsend, hrom]

theorem counting_notMem_readScratchpad : .counting ∉ readScratchpad := by
  have himage := counting_notMem_of_isTransfer isTransfer_readImage
  simp [readScratchpad, selectDs, counting_notMem_select, himage]

theorem counting_notMem_writeScratchpad : .counting ∉ writeScratchpad := by
  have himage := counting_notMem_of_isTransfer isTransfer_writeImage
  simp [writeScratchpad, selectDs, counting_notMem_select, himage]

theorem counting_notMem_programOf (i : Instr) : .one .counting ∉ programOf i := by
  have hsend := fun x => counting_notMem_of_isTransfer (isTransfer_sendByte x)
  have hreceive := counting_notMem_of_isTransfer isTransfer_receiveByte
  cases i <;> simp [programOf, mem_straight, writeSlot, readSlot, busReset, hsend, hreceive, counting_notMem_select,
    selectDs, counting_notMem_readScratchpad, counting_notMem_writeScratchpad]

/-! The operations. -/

/-- An instruction issued in `Idle`: the block is busy with its program (R43). -/
theorem startOf_of_idle (i : Instr) (s : State) (h : Idle s) :
    (startOf i s).busy = true ∧ (startOf i s).todo = programOf i := by
  obtain ⟨opcode, first, hf, he⟩ := startOf_eq i
  have hi : Idle (if i.form = .wire then writeRegister 0x02 (encode i) s else s) := by
    split
    · rw [writeRegister_arg0 _ _ ((not_busy_iff s).2 h)]; exact h
    · exact h
  rw [he, issue_of_idle _ _ _ _ hi]
  exact ⟨issued_busy _ _ _ _ hf, rfl⟩

/-- An instruction issued in `Idle` and waited for is the issued operation run to its end (R72). -/
theorem exec_eq_complete (i : Instr) (s : State) (h : Idle s) : exec i s = .next (complete (startOf i s)) := by
  rw [exec_eq, operate, (not_busy_iff s).2 h, if_neg Bool.false_ne_true]

/-- Settles O56: the operation's program, run at once and step by step. -/
theorem waitingIsStepping : Obligations.WaitingIsStepping := by
  intro i s h
  obtain ⟨hb, ht⟩ := startOf_of_idle i s h
  obtain ⟨n, hn⟩ := stepsTo_run (startOf i s).todo (ht ▸ counting_notMem_programOf i) (startOf i s) hb
  exact ⟨n, _, exec_eq_complete i s h, hn⟩

end Sys2Proof.Machine

/-!
PROOFS. The host's writes: the registers of the address map and the `CMD` write (20_memory.md rules R42, R43, R52).
-/

namespace Sys2Proof.Machine

/-! A write of a register other than `CMD` (R42). -/

/-- Only offset 0x00 is `CMD` (R52). -/
theorem hostWrite_of_ne {off : Offset} (h : off ≠ 0x00) (v : Byte) (s : State) :
    hostWrite off v s = writeRegister off v s := by rw [hostWrite, if_neg h]

theorem hostWrite_cmd (c : Byte) (s : State) : hostWrite 0x00 c s = writeCmd c s := by rw [hostWrite, if_pos rfl]

/-- While the block is busy a write of any register is dropped (R42, R43). -/
theorem hostWrite_of_busy (off : Offset) (v : Byte) (s : State) (hb : s.busy = true) : hostWrite off v s = s := by
  by_cases h : off = 0x00
  · rw [h, hostWrite_cmd, writeCmd, if_pos hb]
  · rw [hostWrite_of_ne h, writeRegister, if_pos hb]

theorem writeRegister_arg1 (v : Byte) (s : State) (h : s.busy = false) :
    writeRegister 0x03 v s = { s with arg1 := .held v } := by simp [writeRegister, h, regAt]

theorem writeRegister_buf {off : Offset} {i : Fin 9} (hi : off.toNat = 0x08 + i) (v : Byte) (s : State)
    (h : s.busy = false) : writeRegister off v s = { s with buf := s.buf.set i (.held v) } := by
  simp [writeRegister, h, regAt_buf off i hi]

/-- A register the host cannot write, and an offset without a register (R42). -/
theorem writeRegister_ignored {off : Offset} (h : regAt off ∈ [Reg.status, .res0, .res1, .none]) (v : Byte) (s : State) :
    writeRegister off v s = s := by
  simp only [List.mem_cons, List.not_mem_nil, or_false] at h
  rw [writeRegister]
  obtain h | h | h | h := h <;> simp [h]

/-- The offsets at which a write changes nothing (R42, R52). -/
theorem regAt_ignored (off : Offset)
    (h : off = 0x01 ∨ off = 0x04 ∨ off = 0x05 ∨ off = 0x06 ∨ off = 0x07 ∨ 0x11 ≤ off.toNat) :
    off ≠ 0x00 ∧ regAt off ∈ [Reg.status, .res0, .res1, .none] := by
  revert off
  decide

/-- Settles O11: one clause for each register the host can write, and one for all the others. -/
theorem hostWriteFollowsTheMap : Obligations.HostWriteFollowsTheMap := by
  intro s off v rest h
  rw [step_write h]
  refine ⟨fun hb => ?_, fun hb => ⟨?_, ?_, fun i hi => ?_⟩, fun hoff => ?_⟩
  · rw [hostWrite_of_busy off v _ (by exact hb)]
  · rintro rfl; rw [hostWrite_of_ne (by decide), writeRegister_arg0 v _ (by exact hb)]
  · rintro rfl; rw [hostWrite_of_ne (by decide), writeRegister_arg1 v _ (by exact hb)]
  · have hne : off ≠ 0x00 := by rintro rfl; change 0 = 0x08 + (i : Nat) at hi; omega
    rw [hostWrite_of_ne hne, writeRegister_buf hi v _ (by exact hb)]
  · obtain ⟨hne, hr⟩ := regAt_ignored off hoff
    rw [hostWrite_of_ne hne, writeRegister_ignored hr]

/-! The `CMD` write (R43). -/

/-- The row of a table that a lookup finds. -/
theorem mem_of_lookupRow {rows : List (Byte × Instr)} {b : Byte} {i : Instr} (h : lookupRow rows b = some i) :
    (b, i) ∈ rows := by
  obtain ⟨r, hr, rfl⟩ := Option.map_eq_some_iff.1 h
  obtain rfl : r.1 = b := by simpa using List.find?_some hr
  exact List.mem_of_find?_eq_some hr

/-- What `CMD` decodes is its opcode, and no wire code (R60, R62). -/
theorem of_decodeOpcode {c : Byte} {i : Instr} (h : decodeOpcode c = some i) : c = encode i ∧ i.form ≠ .wire := by
  have hrows : ∀ r ∈ opcodeRows, r.1 = encode r.2 ∧ r.2.form ≠ .wire := by decide
  exact hrows _ (mem_of_lookupRow h)

/-- The phase in which an operation of R62 starts (R20). -/
def firstPhase (i : Instr) : Phase := if i ∈ directOperations then .direct else .resetPresence

/-- An opcode of the block is issued as itself, in the phase of its kind (R43). -/
theorem startOf_opcode {i : Instr} (hi : i.form ≠ .wire) : startOf i = issue (encode i) (firstPhase i) (programOf i) := by
  cases i
  case searchRom | readRom | matchRom | skipRom | alarmSearch | convertT | writeScratchpadCmd | readScratchpadCmd
    | copyScratchpad | recallEeprom | readPowerSupply => exact absurd rfl hi
  all_goals rfl

theorem firstPhase_of_direct {i : Instr} (h : i ∈ directOperations) : firstPhase i = .direct := if_pos h

theorem firstPhase_of_session {i : Instr} (h : i ∈ sessionOperations) : firstPhase i = .resetPresence := by
  have hne : ∀ j ∈ sessionOperations, j ∉ directOperations := by decide
  exact if_neg (hne i h)

theorem firstPhase_ne_idle (i : Instr) : firstPhase i ≠ .idle := by
  rw [firstPhase]
  split <;> simp

/-- A `CMD` write of a defined opcode (R43). -/
theorem writeCmd_of_decode {c : Byte} {i : Instr} (hc : decodeOpcode c = some i) (s : State) (h : s.busy = false) :
    writeCmd c s = issued c (firstPhase i) (programOf i) s := by
  obtain ⟨rfl, hi⟩ := of_decodeOpcode hc
  rw [writeCmd, h, if_neg Bool.false_ne_true, hc]
  exact (congrFun (startOf_opcode hi) s).trans (issue_of_idle _ _ _ s ((not_busy_iff s).1 h))

/-- A `CMD` write of a reserved opcode (R70). -/
theorem writeCmd_reserved {c : Byte} (hc : decodeOpcode c = none) (s : State) (h : s.busy = false) :
    writeCmd c s = { s with ok := false } := by
  rw [writeCmd, h, if_neg Bool.false_ne_true, hc]
  rfl

/-- The latches take the bytes the operand registers hold (R43). -/
theorem operandA_of_held {s : State} {a : Byte} (h : s.arg0 = .held a) : s.operandA = a := by
  rw [State.operandA, h, Content.read]

theorem operandB_of_held {s : State} {b : Byte} (h : s.arg1 = .held b) : s.operandB = b := by
  rw [State.operandB, h, Content.read]

/-- Settles O12: a defined opcode is issued, in the first phase of its operation. -/
theorem cmdWriteIssuesOrDrops : Obligations.CmdWriteIssuesOrDrops := by
  intro s c rest h
  rw [step_write h]
  refine ⟨fun hb => ?_, fun hb i hc => ?_, fun hb hc => ?_⟩
  · rw [hostWrite_of_busy 0x00 c _ (by exact hb)]
  · refine ⟨_, rfl, ?_⟩
    rw [hostWrite_cmd, writeCmd_of_decode hc _ (by exact hb)]
    exact ⟨issued_busy _ _ _ _ (firstPhase_ne_idle i), rfl, fun _ => operandA_of_held, fun _ => operandB_of_held,
      firstPhase_of_direct, firstPhase_of_session⟩
  · rw [hostWrite_cmd, writeCmd_reserved hc _ (by exact hb)]

end Sys2Proof.Machine

/-!
PROOFS. The reading of a temperature, what operations put on the trace, `DRIVE_LOW`, and the resolution field
(20_memory.md rules R47, R48, R53; 40_bus_primitives.md rules R80, R83; 44_ds18b20.md rules R123, R126, R129).
-/

namespace Sys2Proof.Machine

/-! `READ_TEMPERATURE` (R123, R126). -/

/-- No free level is drawn while listed answers are left (R8, R23). -/
theorem consume_draws_of_listed {n : Nat} {s : State} (h : s.script.drop n ≠ []) : (consume n s).draws = s.draws := by
  have hlt : n < s.script.length := by simpa using h
  simp only [consume]
  omega

/-- `READ_TEMPERATURE` issued in `s`, after the Convert session and a poll that has sampled `zeros` zeros and a 1 (R123). -/
def converted (rom : Vector Byte 8) (zeros : Nat) (more : List Bool) (s : State) : State :=
  polled zeros more { selected rom 0x44 (issued (encode .readTemperature) .resetPresence (programOf .readTemperature) s)
    with phase := .dataTransfer }

section
variable {rom : Vector Byte 8} {zeros : Nat} {more : List Bool} {s : State}

theorem converted_trace : (converted rom zeros more s).trace =
    s.trace ++ selectTrace rom 0x44 ++ pollTrace zeros ++ readSlotTrace true := by
  simp [State.trace, converted, polled, selected, issued]

theorem converted_draws (hp : s.script.drop 65 = List.replicate zeros false ++ true :: more) :
    (converted rom zeros more s).draws = s.draws :=
  consume_draws_of_listed (n := 65) (s := s) (by rw [hp]; simp)

/-- Behind the poll the answers are those listed after its 1. -/
theorem converted_upcoming (hp : s.script.drop 65 = List.replicate zeros false ++ true :: more) (n : Nat) :
    (converted rom zeros more s).upcoming n = { s with script := more }.upcoming n :=
  upcoming_congr (s := { s with script := more }) (t := converted rom zeros more s) rfl (converted_draws hp) n

/-- `READ_TEMPERATURE` whose poll ends is what stands behind the poll (R126). -/
theorem exec_readTemperature_converted (h : Idle s) (hs : s.upcoming 65 = selectAnswers rom) (hr : DsRomOk rom)
    (hp : s.script.drop 65 = List.replicate zeros false ++ true :: more) :
    exec .readTemperature s = .next
      { runActs (readScratchpad ++ [.resultTemperature, .succeed]) (converted rom zeros more s) with todo := [] } := by
  rw [exec_readTemperature s h, run_converted rom zeros more _ _ (issued_busy _ _ _ _ (by simp)) hs hr hp, run_straight]
  rfl

end

/-- The scratchpad read behind the poll, and the end of the operation (R126). -/
theorem runActs_reading (rom : Vector Byte 8) (img : Vector Byte 9) (s : State) (hb : s.busy = true)
    (hs : s.upcoming 137 = selectAnswers rom ++ bytesBits img.toList) (hr : DsRomOk rom) (hi : ImageOk img) :
    runActs (readScratchpad ++ [.resultTemperature, .succeed]) s =
      succeed { withImage rom img s with res0 := .held img[0], res1 := .held img[1] } := by
  have himage : (withImage rom img s).image = img := image_of_held rfl
  rw [runActs_then _ _ _ _ hb (runActs_readScratchpad_ok rom img s hb hs hr hi) rfl,
    runActs_result_succeed .resultTemperature _ rfl, act, himage]

/-- Settles O39: the Convert session and the poll, and behind them the scratchpad read. -/
theorem readTemperatureReturnsTheReading : Obligations.ReadTemperatureReturnsTheReading := by
  intro s rom rom' img zeros more h hs hr hp hs' hr' hi
  have hread := runActs_reading rom' img (converted rom zeros more s) rfl ((converted_upcoming hp 137).trans hs') hr' hi
  refine ⟨_, exec_readTemperature_converted h hs hr hp, ?_⟩
  rw [hread]
  refine ⟨⟨rfl, rfl, rfl, rfl⟩, rfl, rfl, rfl, ?_, ⟨rfl, ?_⟩, ⟨rfl, rfl, rfl⟩, rfl, rfl, rfl, rfl⟩
  · rw [← converted_trace (more := more)]
    simp [State.trace, withImage]
  · exact congrArg (· + (137 - more.length)) (converted_draws hp)

/-! The trace. -/

theorem sameInputs_self (i : Instr) (s : State) (h : Idle s) : SameInputs i s s :=
  ⟨h, h, rfl, fun _ => rfl, fun _ => rfl, fun _ => ⟨rfl, rfl, rfl⟩, rfl, rfl⟩

/-- Settles O54: what an operation puts on the trace is a segment behind what stands there. -/
theorem operationsOnlyAddToTheTrace : Obligations.OperationsOnlyAddToTheTrace := by
  intro i s t h he
  obtain ⟨s', _, seg, hs, -, htrace, -⟩ := noStateSurvivesAnOperation i s s (sameInputs_self i s h)
  cases hs.symm.trans he
  exact ⟨seg, htrace.symm⟩

/-! `DRIVE_LOW` and the resolution field. -/

/-- Settles O17, by the program of the operation. -/
theorem driveLowPullsTheLine : Obligations.DriveLowPullsTheLine := by
  intro s h
  have hb := issued_busy (encode .driveLow) .direct (straight [.driveLow, .succeed]) s (by simp)
  rw [exec_driveLow s h, ran, runActs_result_succeed .driveLow _ (by exact hb)]
  simp [succeed, flagsSucceeded, act, driveLow, issued, succeededAs, encode, show s.phase = .idle from h]

/-- Settles O48, bit by bit. -/
theorem resolutionFieldIsReplaced : Obligations.ResolutionFieldIsReplaced := by
  intro cfg r
  simp only [resolutionField, withResolution]
  refine ⟨?_, ?_, ?_, ?_⟩
  · ext k hk; interval_cases k <;> simp
  · simp
  · ext k hk; interval_cases k <;> simp
  · ext k hk; interval_cases k <;> simp

end Sys2Proof.Machine

/-!
PROOFS. The decoder and the encoder: 30_encoding.md rules R60, R62, R68, R70.
-/

namespace Sys2Proof.Machine

/-! The program words (R60, R62, R68). -/

/-- A word that decodes is a byte, and the byte is read as the instruction (R60). -/
theorem of_decodeTableWord {w : Nat} {i : Instr} (h : decodeTableWord 8 w = some i) :
    w < 256 ∧ decodeByte (BitVec.ofNat 8 w) = .ok i := by
  simp only [decodeTableWord, wordWellFormed, decodeBytes] at h
  by_cases hw : w < 256
  · cases hd : decodeByte (BitVec.ofNat 8 w) with
    | ok j => simp_all
    | error e => simp_all
  · simp [hw] at h

/-- What is read from a byte has that byte as its word (R60). -/
theorem of_decodeByte {b : Byte} {i : Instr} (h : decodeByte b = .ok i) : b = encode i := by
  have hwire : ∀ r ∈ wireRows, r.1 = encode r.2 := by decide
  cases hc : decodeOpcode b with
  | some j =>
    obtain rfl : j = i := by simpa [decodeByte, hc] using h
    exact (of_decodeOpcode hc).1
  | none =>
    cases hl : lookupRow wireRows b with
    | some j =>
      obtain rfl : j = i := by simpa [decodeByte, hc, hl] using h
      exact hwire _ (mem_of_lookupRow hl)
    | none => simp [decodeByte, hc, hl] at h

/-- Settles O2: the word of an instruction is well formed, and the decoder reads its row. -/
theorem decodeInvertsEncode : Obligations.DecodeInvertsEncode := by
  intro i
  obtain ⟨-, -, hbytes⟩ := Laws.EncodeDecode.statement_of_instr i
  have hw : wordWellFormed 8 (encode i).toNat = true := by simpa [wordWellFormed] using (encode i).isLt
  refine ⟨?_, hbytes⟩
  rw [decodeTableWord, if_pos hw, BitVec.ofNat_toNat, BitVec.setWidth_eq, hbytes]

/-- Settles O3: the byte that was read is the word of the instruction, and the word is no longer than a byte. -/
theorem encodeInvertsDecode : Obligations.EncodeInvertsDecode := by
  intro w i h
  obtain ⟨hw, hd⟩ := of_decodeTableWord h
  rw [← of_decodeByte hd, BitVec.toNat_ofNat, Nat.mod_eq_of_lt hw]

/-- Settles O1: each word is the word of its instruction. -/
theorem decoderReadsTableWords : Obligations.DecoderReadsTableWords :=
  ⟨(decodeInvertsEncode .driveLow).1, (decodeInvertsEncode .readByte).1, (decodeInvertsEncode .select).1,
    (decodeInvertsEncode .crcUpdate).1, (decodeInvertsEncode .setResolution).1,
    (decodeInvertsEncode .readScratchpadCmd).1, (decodeInvertsEncode .skipRom).1⟩

/-! The decoder of `CMD` (R62, R70). -/

/-- A table is looked up as an association list. -/
theorem lookupRow_map {α : Type} (f : Instr → α) (rows : List (Byte × Instr)) (b : Byte) :
    (lookupRow rows b).map f = List.lookup b (rows.map fun r => (r.1, f r.2)) := by
  induction rows with
  | nil => rfl
  | cons r rows ih =>
    rw [lookupRow] at ih ⊢
    by_cases hr : r.1 = b
    · simp [List.find?, hr]
    · have hfind : (r.1 == b) = false := beq_false_of_ne hr
      have hlookup : (b == r.1) = false := beq_false_of_ne (Ne.symm hr)
      simpa [List.find?, List.lookup, hfind, hlookup] using ih

/-- A byte is reserved exactly if no row of the opcode list has it (R70). -/
theorem reserved_iff (b : Byte) : Reserved b ↔ ∀ r ∈ opcodeRows, r.1 ≠ b := by
  simp only [Reserved, opcodeRows, List.cons_append, List.nil_append, List.forall_mem_cons, List.not_mem_nil,
    false_implies, implies_true, and_true]
  bv_omega

/-- Only a reserved byte has no instruction of `CMD` (R62, R70). -/
theorem decodeOpcode_eq_none_iff (b : Byte) : decodeOpcode b = none ↔ Reserved b := by
  simp [decodeOpcode, lookupRow, reserved_iff]

/-- Settles O4: the list is the opcode table with the form of each row. -/
theorem cmdDecoderIsTheOpcodeList : Obligations.CmdDecoderIsTheOpcodeList :=
  fun b => ⟨lookupRow_map (fun i => (i, i.form)) opcodeRows b, decodeOpcode_eq_none_iff b⟩

/-- Settles O13: the `CMD` write of a byte that has no row. -/
theorem reservedOpcodeIsRefused : Obligations.ReservedOpcodeIsRefused := by
  intro s c rest h hc hi
  have hd := (decodeOpcode_eq_none_iff c).2 hc
  refine ⟨hd, ?_⟩
  rw [step_write h, hostWrite_cmd, writeCmd_reserved hd { s with inputs := rest } ((not_busy_iff s).2 hi)]

/-- Settles O6, by the host's next event; a program word that is an instruction is a run to its end. -/
theorem everyStepGoesOn : Obligations.EveryStepGoesOn := by
  intro s
  cases hi : s.inputs with
  | nil => exact ⟨_, step_nil hi⟩
  | cons e rest =>
    cases e with
    | read off => exact ⟨_, step_read hi⟩
    | write off v => exact ⟨_, step_write hi⟩
    | run w =>
      cases hw : decodeByte w with
      | ok i => exact ⟨_, (step_run hi hw).trans (exec_eq i _)⟩
      | error e => exact ⟨_, step_run_reserved hi hw⟩
    | wait => exact ⟨_, step_wait hi⟩
    | pause => exact ⟨_, step_pause hi⟩
    | rst => exact ⟨_, step_rst hi⟩

end Sys2Proof.Machine

/-!
PROOFS. A selection that succeeds, and the wire command codes on their own: 30_encoding.md rules R66, R68, R71, R72;
41_bit_byte_transport.md rule R96; 42_bus_session.md rules R102, R104.
-/

namespace Sys2Proof.Machine

/-- Settles O27, by the law of a selection that succeeds. -/
theorem selectSendsTheCommand : Obligations.SelectSendsTheCommand := by
  intro s rom h hs hr hf
  have hb := issued_busy (encode .select) .resetPresence (straight (select .argA .argB false ++ [.succeed])) s (by simp)
  have hsel := runActs_select_ok .argA .argB false rom _ hb hs hr (fun _ => rfl) (.inr hf)
  refine ⟨_, exec_select s h, ?_⟩
  rw [ran, runActs_then _ _ _ _ hb hsel rfl, runActs_succeed]
  exact ⟨⟨rfl, rfl, rfl, rfl⟩, by simp [State.trace, selected, issued, Src.value], ⟨rfl, rfl⟩, ⟨rfl, rfl, rfl⟩,
    ⟨rfl, rfl, rfl, rfl⟩, ⟨rfl, rfl⟩, rfl, rfl, rfl⟩

/-- A wire command code is issued as the host line `WRITE_BYTE code` (R68, R72). -/
theorem startOf_wire {i : Instr} (hi : i.form = .wire) : startOf i = startWire (encode i) := by
  cases i
  case searchRom | readRom | matchRom | skipRom | alarmSearch | convertT | writeScratchpadCmd | readScratchpadCmd
    | copyScratchpad | recallEeprom | readPowerSupply => rfl
  all_goals simp [Instr.form] at hi

/-- On its own it is `WRITE_BYTE` with the code in `ARG0` (R71, R72). -/
theorem exec_wire {i : Instr} (hi : i.form = .wire) (s : State) (h : Idle s) :
    exec i s = exec .writeByte { s with arg0 := .held (encode i) } := by
  rw [exec_eq, startOf_wire hi, operate_startWire _ s h]
  exact (exec_writeByte { s with arg0 := .held (encode i) } h).symm

/-- Settles O50: `WRITE_BYTE` sends the code that stands in `ARG0`. -/
theorem wireCodesGoOutAsBytes : Obligations.WireCodesGoOutAsBytes := by
  intro i code s hmem h
  have hrows : ∀ r ∈ [(Instr.searchRom, (0xF0 : Byte)), (.readRom, 0x33), (.matchRom, 0x55), (.skipRom, 0xCC),
      (.alarmSearch, 0xEC), (.convertT, 0x44), (.writeScratchpadCmd, 0x4E), (.readScratchpadCmd, 0xBE),
      (.copyScratchpad, 0x48), (.recallEeprom, 0xB8), (.readPowerSupply, 0xB4)],
      r.1.form = .wire ∧ r.2 = encode r.1 := by decide
  obtain ⟨hi, hcode⟩ := hrows _ hmem
  dsimp only at hi hcode
  subst hcode
  rw [exec_wire hi s h]
  exact writeByteSendsEightSlots.2 { s with arg0 := .held (encode i) } h

end Sys2Proof.Machine

/-!
PROOFS. The lines of the assembler, served one access after the other and waited for (20_memory.md rules R42, R43, R51;
30_encoding.md rules R61, R72).
-/

namespace Sys2Proof.Machine

/-! Steps of a run (R8). -/

/-- A run begins with a step. -/
theorem run_of_step (M : Host.Core) {s t : M.State} (h : M.step s = .next t) (n : Nat) : M.run (n + 1) s = M.run n t := by
  rw [Host.Core.run, h]

theorem core_run_succ {s t : State} (h : step s = .next t) (n : Nat) : core.run (n + 1) s = core.run n t :=
  run_of_step core h n

theorem core_run_one {s t : State} (h : step s = .next t) : core.run 1 s = .next t := core_run_succ h 0

/-- A run in two parts. -/
theorem core_run_then {s t : State} {m : Nat} (h : core.run m s = .next t) (n : Nat) :
    core.run (m + n) s = core.run n t := by
  induction m generalizing s with
  | zero =>
    cases h
    rw [Nat.zero_add]
  | succ m ih =>
    obtain ⟨u, hu⟩ := everyStepGoesOn s
    rw [core_run_succ hu] at h
    rw [Nat.add_right_comm, core_run_succ hu, ih h]

/-! The steps of an operation that is waited for. -/

/-- While the block is busy `OK` is 0 (R21). -/
def OkOpen (s : State) : Prop := s.busy = true → s.ok = false

/-- A micro-action that leaves the block busy keeps `OK`. -/
theorem act_keeps_ok (a : Act) (s : State) (h : (act a s).busy = true) : (act a s).ok = s.ok := by
  by_cases ha : ∃ p, a = .enter p
  · obtain ⟨p, rfl⟩ := ha
    rfl
  · exact (act_keeps_phase a (fun p hp => ha ⟨p, hp⟩) s h).2

/-- A step of the controller does not set `OK` while it leaves the block busy. -/
theorem tick_okOpen (s : State) (h : OkOpen s) : OkOpen (tick s) := by
  intro hb'
  cases hb : s.busy with
  | false =>
    rw [tick_idle s hb, hb] at hb'
    cases hb'
  | true =>
    have hok := h hb
    cases ht : s.todo with
    | nil => simpa [tick, hb, ht] using hok
    | cons m rest =>
      cases m with
      | poll => rw [tick_poll rest s hb ht]; exact hok
      | pollTest => rw [tick_pollTest rest s hb ht]; exact hok
      | one a =>
        rw [tick_one a rest s hb ht, tickAct] at hb' ⊢
        split
        · split <;> exact hok
        · split
          · exact hok
          · next hc _ hw =>
            rw [if_neg hc, hw] at hb'
            exact (act_keeps_ok a s hb').trans hok

/-- A state that is reached in steps of the controller is reached in steps of a busy block (R20). -/
theorem StepsTo.of_busy {s t : State} (h : StepsTo s t) :
    ∃ n, tick^[n] s = t ∧ ∀ m, m < n → (tick^[m] s).busy = true := by
  obtain ⟨n, hn⟩ := h
  induction n generalizing s with
  | zero => exact ⟨0, hn, by simp⟩
  | succ n ih =>
    cases hb : s.busy with
    | false => exact ⟨0, (Function.iterate_fixed (tick_idle s hb) (n + 1)).symm.trans hn, by simp⟩
    | true =>
      obtain ⟨k, hk, hbusy⟩ := ih hn
      refine ⟨k + 1, hk, fun m hm => ?_⟩
      cases m with
      | zero => exact hb
      | succ m => exact hbusy m (by omega)

/-- No run leaves a micro-action to do: it leaves nothing, or a poll that goes on (R123, R146). -/
theorem run_todo_ne_one (m : List Micro) (s : State) (a : Act) (p : List Micro) : (run m s).todo ≠ .one a :: p := by
  have hpoll : ∀ rest : List Micro, (∀ t, (run rest t).todo ≠ .one a :: p) →
      ∀ t, (run (.poll :: rest) t).todo ≠ .one a :: p := by
    intro rest ih t
    rw [run]
    dsimp only
    split
    · exact ih _
    · simp
  induction m generalizing s with
  | nil => simp [run]
  | cons x rest ih =>
    cases x with
    | one b =>
      rw [run]
      split
      · exact ih _
      · simp
    | poll => exact hpoll rest ih s
    | pollTest =>
      by_cases hbit : s.bit = true
      · rw [run, if_pos hbit]; exact ih s
      · rw [run, if_neg hbit]; exact hpoll rest ih s

/-- Every program begins with a micro-action. -/
theorem programOf_cons (i : Instr) : ∃ a p, programOf i = .one a :: p := by cases i <;> exact ⟨_, _, rfl⟩

/-- The steps of the controller take nothing from the host's list (R8). -/
theorem ticks_keep_inputs (n : Nat) (s : State) : (tick^[n] s).inputs = s.inputs := by
  have h := congrArg State.inputs (ticks_aside s.hRdata s.inputs n s)
  exact h

/-! The wait of a line (R72). -/

/-- The state with the wait at the head of the host's list and the byte `b` read last. -/
def waiting (b : Byte) (rest : List HostEvent) (s : State) : State := aside s.todo b (.wait :: rest) s

/-- While the block is busy, the wait reads 0x01 and the controller takes a step. -/
theorem step_waiting_of_busy {s : State} (b : Byte) (rest : List HostEvent) (hb : s.busy = true) (hok : s.ok = false) :
    step (waiting b rest s) = .next (waiting 0x01 rest (tick s)) := by
  have hstatus : (waiting b rest s).status = 0x01 := by
    simp [State.status, waiting, aside_busy, hb, show (aside s.todo b (.wait :: rest) s).ok = false from hok]
  rw [step_wait (rest := rest) rfl, waitStep_of_busy rest _ (by exact hb), hstatus]
  exact congrArg Host.Outcome.next (tick_aside 0x01 (.wait :: rest) s)

/-- When the block is idle, the wait reads `STATUS` and is over. -/
theorem step_waiting_of_idle {s : State} (b : Byte) (hb : s.busy = false) :
    step (waiting b s.inputs s) = .next { s with hRdata := s.status } := by
  rw [step_wait (rest := s.inputs) rfl, waitStep_of_idle _ _ (by exact hb)]
  rfl

/-- The wait as long as the block is busy: the controller goes on, and 0x01 is the last byte read. -/
theorem run_waiting (rest : List HostEvent) (n : Nat) (b : Byte) (s : State) (hok : OkOpen s)
    (hb : ∀ m, m < n → (tick^[m] s).busy = true) :
    core.run n (waiting b rest s) = .next (waiting (if n = 0 then b else 0x01) rest (tick^[n] s)) := by
  induction n generalizing b s with
  | zero => rfl
  | succ n ih =>
    have hb0 : s.busy = true := hb 0 (by omega)
    rw [core_run_succ (step_waiting_of_busy b rest hb0 (hok hb0)),
      ih 0x01 (tick s) (tick_okOpen s hok) (fun m hm => hb (m + 1) (by omega)), ite_self, if_neg (Nat.succ_ne_zero n)]
    rfl

/-! The accesses of a line before its wait (R42, R43, R72). -/

/-- The opcode of an instruction that is no wire code is what `CMD` decodes (R62). -/
theorem decodeOpcode_encode {i : Instr} (hi : i.form ≠ .wire) : decodeOpcode (encode i) = some i := by
  cases i
  case searchRom | readRom | matchRom | skipRom | alarmSearch | convertT | writeScratchpadCmd | readScratchpadCmd
    | copyScratchpad | recallEeprom | readPowerSupply => exact absurd rfl hi
  all_goals rfl

/-- An instruction issued in `Idle` (R43, R72). -/
theorem startOf_eq_issued (i : Instr) : ∃ opcode first, ∀ s, Idle s →
    startOf i s = issued opcode first (programOf i) (prepared i s) := by
  obtain ⟨opcode, first, -, he⟩ := startOf_eq i
  refine ⟨opcode, first, fun s h => ?_⟩
  have hp : (if i.form = .wire then writeRegister 0x02 (encode i) s else s) = prepared i s := by
    by_cases hi : i.form = .wire
    · rw [if_pos hi, writeRegister_arg0 _ _ ((not_busy_iff s).2 h), prepared_of_wire hi]
    · rw [if_neg hi, prepared_of_not_wire hi]
  rw [he, hp, issue_of_idle _ _ _ (prepared i s) h]

/-- The issue does not look at the host's list, in which the wait stays (R43, R72). -/
theorem startOf_waiting (i : Instr) (s : State) (rest : List HostEvent) (h : Idle s) :
    startOf i { s with inputs := .wait :: rest } = waiting s.hRdata rest (startOf i { s with inputs := rest }) := by
  obtain ⟨opcode, first, he⟩ := startOf_eq_issued i
  rw [he { s with inputs := .wait :: rest } h, he { s with inputs := rest } h]
  rfl

/-- The `CMD` write of a line issues its operation, and the wait is left (R43, R72). -/
theorem step_issue {i : Instr} (hi : i.form ≠ .wire) {s : State} {rest : List HostEvent}
    (hin : s.inputs = .write 0x00 (encode i) :: .wait :: rest) (h : Idle s) :
    step s = .next (waiting s.hRdata rest (startOf i { s with inputs := rest })) := by
  have hb : ({ s with inputs := .wait :: rest } : State).busy = false := (not_busy_iff s).2 h
  rw [step_write hin, hostWrite_cmd, writeCmd, hb, if_neg Bool.false_ne_true, decodeOpcode_encode hi]
  exact congrArg Host.Outcome.next (startOf_waiting i s rest h)

theorem step_arg0 {s : State} {a : Byte} {rest : List HostEvent} (hin : s.inputs = .write 0x02 a :: rest) (h : Idle s) :
    step s = .next { s with inputs := rest, arg0 := .held a } := by
  obtain ⟨-, hidle, -⟩ := hostWriteFollowsTheMap s 0x02 a rest hin
  exact (hidle ((not_busy_iff s).2 h)).1 rfl

theorem step_arg1 {s : State} {b : Byte} {rest : List HostEvent} (hin : s.inputs = .write 0x03 b :: rest) (h : Idle s) :
    step s = .next { s with inputs := rest, arg1 := .held b } := by
  obtain ⟨-, hidle, -⟩ := hostWriteFollowsTheMap s 0x03 b rest hin
  obtain ⟨-, harg1, -⟩ := hidle ((not_busy_iff s).2 h)
  exact harg1 rfl

theorem step_setBuf {s : State} {k : Fin 9} {v : Byte} {rest : List HostEvent}
    (hin : s.inputs = .write (BitVec.ofNat 5 (0x08 + k)) v :: rest) (h : Idle s) :
    step s = .next { s with inputs := rest, buf := s.buf.set k (.held v) } := by
  obtain ⟨-, hidle, -⟩ := hostWriteFollowsTheMap s _ v rest hin
  obtain ⟨-, -, hbuf⟩ := hidle ((not_busy_iff s).2 h)
  exact hbuf k (by rw [BitVec.toNat_ofNat, Nat.mod_eq_of_lt (by omega)])

/-- The line `SET_BUF k, v` (R14, R72). -/
theorem lineEvents_setBuf (k : Fin 9) (v : Byte) :
    lineEvents (.setBuf k v) = [.write (BitVec.ofNat 5 (0x08 + k)) v] := if_pos k.isLt

/-- The operands of a line go to `ARG0` and `ARG1` only (R72). -/
theorem withOperands_keeps (args : List Byte) (s : State) :
    (withOperands args s).phase = s.phase ∧ (withOperands args s).inputs = s.inputs := by
  unfold withOperands
  split <;> exact ⟨rfl, rfl⟩

/-- The line of a wire command code is the one of `WRITE_BYTE` (R71, R72). -/
theorem startOf_wire_eq {i : Instr} (hi : i.form = .wire) (s : State) (h : Idle s) :
    startOf i s = startOf .writeByte { s with arg0 := .held (encode i) } := by
  rw [startOf_wire hi, startWire, writeRegister_arg0 _ s ((not_busy_iff s).2 h)]
  rfl

/-- The accesses of a well-formed line up to its wait write the operands and issue the instruction (R61, R72). -/
theorem run_line {i : Instr} {args : List Byte} {s : State} {rest : List HostEvent} (h : Idle s)
    (hw : (AsmLine.op i args).wellFormed = true) (hin : s.inputs = lineEvents (.op i args) ++ rest) :
    ∃ k, core.run k s = .next (waiting s.hRdata rest (startOf i (withOperands args { s with inputs := rest }))) := by
  have hlen : args.length = i.form.operandCount := by simpa [AsmLine.wellFormed, Instr.wellFormed] using hw
  cases hf : i.form with
  | n | s =>
    rw [hf] at hlen
    obtain rfl := List.eq_nil_of_length_eq_zero hlen
    simp only [lineEvents.eq_def, hf] at hin
    exact ⟨1, core_run_one (step_issue (by simp [hf]) hin h)⟩
  | a =>
    rw [hf] at hlen
    obtain ⟨a, rfl⟩ := List.length_eq_one_iff.1 hlen
    simp only [lineEvents.eq_def, hf] at hin
    exact ⟨2, (core_run_succ (step_arg0 hin h) 1).trans (core_run_one (step_issue (by simp [hf]) rfl h))⟩
  | ab =>
    rw [hf] at hlen
    obtain ⟨a, b, rfl⟩ := List.length_eq_two.1 hlen
    simp only [lineEvents.eq_def, hf] at hin
    exact ⟨3, (core_run_succ (step_arg0 hin h) 2).trans (Eq.trans (core_run_succ (step_arg1 rfl (by exact h)) 1)
      (core_run_one (step_issue (by simp [hf]) rfl (by exact h))))⟩
  | wire =>
    rw [hf] at hlen
    obtain rfl := List.eq_nil_of_length_eq_zero hlen
    simp only [lineEvents.eq_def, hf] at hin
    have hargs : withOperands [] { s with inputs := rest } = { s with inputs := rest } := rfl
    rw [hargs, startOf_wire_eq hf _ (by exact h)]
    exact ⟨2, (core_run_succ (step_arg0 hin h) 1).trans (core_run_one (step_issue (i := .writeByte) (by simp [Instr.form])
      rfl h))⟩

/-- The wait of an instruction issued in `s`, until `BUSY` reads 0 or the listed answers end inside the poll (R72, log 7). -/
theorem run_wait (i : Instr) (b : Byte) (s : State) (h : Idle s) :
    ∃ n t, exec i s = .next t ∧
      (Idle t → core.run n (waiting b s.inputs (startOf i s)) = .next { t with hRdata := t.status }) ∧
      (¬ Idle t → core.run n (waiting b s.inputs (startOf i s)) =
        .next { t with inputs := .wait :: s.inputs, hRdata := 0x01 }) := by
  obtain ⟨hb, htodo⟩ := startOf_of_idle i s h
  obtain ⟨opcode, first, hissued⟩ := startOf_eq_issued i
  have hok : OkOpen (startOf i s) := fun _ => by rw [hissued s h]; rfl
  have hinputs : (startOf i s).inputs = s.inputs := by rw [hissued s h]; rfl
  obtain ⟨n, (hn : tick^[n] (startOf i s) = complete (startOf i s)), hbusy⟩ :=
    (stepsTo_run (startOf i s).todo (htodo ▸ counting_notMem_programOf i) (startOf i s) hb).of_busy
  have hwait := run_waiting s.inputs n b (startOf i s) hok hbusy
  rw [hn] at hwait
  cases ht : (complete (startOf i s)).busy with
  | false =>
    have hkept : (complete (startOf i s)).inputs = s.inputs := by
      rw [← hn, ticks_keep_inputs, hinputs]
    refine ⟨n + 1, _, exec_eq_complete i s h, fun _ => ?_, fun hne => absurd ((not_busy_iff _).1 ht) hne⟩
    rw [core_run_then hwait 1]
    exact core_run_one (hkept ▸ step_waiting_of_idle _ ht)
  | true =>
    have hpos : n ≠ 0 := by
      rintro rfl
      obtain ⟨a, p, hp⟩ := programOf_cons i
      have hsame : (complete (startOf i s)).todo = .one a :: p := by rw [← hn, ← hp]; exact htodo
      exact run_todo_ne_one _ _ a p hsame
    rw [if_neg hpos] at hwait
    exact ⟨n, _, exec_eq_complete i s h, fun hi => absurd hi ((busy_iff _).1 ht), fun _ => hwait⟩

/-- Settles O58: the accesses up to the wait issue the instruction, and the wait lets it run. -/
theorem assemblerLinesRun : Obligations.AssemblerLinesRun := by
  intro s rest h
  refine ⟨fun i args hw hin => ?_, fun k v hin => ?_⟩
  · obtain ⟨k, hk⟩ := run_line h hw hin
    obtain ⟨hphase, hlist⟩ := withOperands_keeps args { s with inputs := rest }
    obtain ⟨n, t, ht, hdone, hopen⟩ := run_wait i s.hRdata _ (hphase.trans h)
    rw [hlist] at hdone hopen
    refine ⟨k + n, t, ht, fun hi => ?_, fun hi => ?_⟩
    · rw [core_run_then hk n, hdone hi]
    · rw [core_run_then hk n, hopen hi]
  · rw [lineEvents_setBuf] at hin
    exact core_run_one (step_setBuf hin h)

end Sys2Proof.Machine

/-!
PROOFS. The line primitives `RELEASE` and `SAMPLE` as operations (40_bus_primitives.md rules R82, R84, R85).
-/

namespace Sys2Proof.Machine

/-- Settles O18, by the program of the operation. -/
theorem releaseLetsTheLineGo : Obligations.ReleaseLetsTheLineGo := by
  refine ⟨rfl, fun s h => ?_⟩
  have hb := issued_busy (encode .release) .direct (straight [.release, .succeed]) s (by simp)
  rw [exec_release s h, ran, runActs_result_succeed .release _ (by exact hb)]
  simp [succeed, flagsSucceeded, act, release, issued, succeededAs, encode, show s.phase = .idle from h]

/-- A sample of the line the block pulls low reads 0 and does not ask the environment (R82). -/
theorem sampleLine_driven {s : State} (ho : s.oe = true) :
    sampleLine s = { s with bit := false, log := .sampled false :: s.log } := by
  simp [sampleLine, lineLevel, afterSample, ho]

/-- A sample of the released line reads the environment's next answer (R82). -/
theorem sampleLine_released {s : State} {b : Bool} (ho : s.oe = false) (hs : s.upcoming 1 = [b]) :
    sampleLine s = { consume 1 s with bit := b, log := .sampled b :: s.log } := by
  have hlevel : lineLevel s = answer s := by simp [answer, lineLevel, ho]
  have hanswer : answer s = b := (List.cons.inj (upcoming_succ 0 s ▸ hs)).1
  simp [sampleLine, hlevel, hanswer, afterSample_released s ho, consume]

/-- The program of `SAMPLE`: the line is sampled, the level goes to `RES0`, and the operation ends in success (R85). -/
theorem runActs_sample_result (s : State) (h : s.busy = true) :
    runActs [.sample, .resultBit, .succeed] s = succeed (act .resultBit (sampleLine s)) := by
  have hb : (sampleLine s).busy = true := by simpa [sampleLine, State.busy] using h
  rw [runActs, if_pos (by exact hb), runActs_result_succeed .resultBit _ (by exact hb)]
  rfl

/-- Settles O19, by the drive state. The issue and the sample leave `oe` as it was, also when it was 1
(notes/assumptions/16.md). -/
theorem sampleOperationReadsTheLevel : Obligations.SampleOperationReadsTheLevel := by
  intro s h
  have hb := issued_busy (encode .sample) .direct (straight [.sample, .resultBit, .succeed]) s (by simp)
  have hphase : s.phase = .idle := h
  rw [exec_sample s h, ran, runActs_sample_result _ hb]
  refine ⟨fun ho => ?_, fun b ho hs => ?_⟩
  · rw [sampleLine_driven (by exact ho)]
    simp [succeed, flagsSucceeded, act, zextBit, issued, succeededAs, encode, hphase]
  · rw [sampleLine_released (by exact ho) (by exact hs)]
    simp [succeed, flagsSucceeded, act, zextBit, consume, issued, succeededAs, encode, hphase]

end Sys2Proof.Machine

/-!
PROOFS. The operations `WRITE_BIT` and `READ_BIT`, and the round trip of a byte (41_bit_byte_transport.md rules R90 to
R98).
-/

namespace Sys2Proof.Machine

/-- The slot of `WRITE_BIT`: the bit latch takes bit 0 of the latched operand, whose slot goes out (R90, R94). -/
theorem runActs_bitFromA_writeSlot (s : State) (h : s.busy = true) :
    runActs ([.bitFromA] ++ writeSlot) s =
      { s with oe := false, timer := 0, bit := s.aL.getLsbD 0
               log := (writeSlotTrace (s.aL.getLsbD 0)).reverse ++ s.log } := by
  rw [runActs_then [.bitFromA] _ _ _ h (if_pos h) h]
  exact runActs_writeSlot _ h

/-- Settles O20, by the law of its slot. -/
theorem writeBitSendsOneSlot : Obligations.WriteBitSendsOneSlot := by
  refine ⟨rfl, fun s h => ?_⟩
  have hb := issued_busy (encode .writeBit) .direct (straight ([.bitFromA] ++ writeSlot ++ [.succeed])) s (by simp)
  rw [exec_writeBit s h, ran, runActs_then _ _ _ _ hb (runActs_bitFromA_writeSlot _ hb) hb, runActs_succeed]
  simp [succeed, flagsSucceeded, issued, succeededAs, encode, show s.phase = .idle from h]

/-- The next level of the environment is what the released line answers (R82). -/
theorem answer_of_upcoming {s : State} {b : Bool} (hs : s.upcoming 1 = [b]) : answer s = b :=
  (List.cons.inj (upcoming_succ 0 s ▸ hs)).1

/-- Settles O21, by the law of a read slot: the environment's next answer goes to `RES0`. -/
theorem readBitReturnsTheSample : Obligations.ReadBitReturnsTheSample := by
  refine ⟨rfl, fun s b h hs => ?_⟩
  have hb := issued_busy (encode .readBit) .direct (straight (readSlot ++ [.resultBit, .succeed])) s (by simp)
  rw [exec_readBit s h, ran, runActs_then _ _ _ _ hb (runActs_readSlot _ hb) hb,
    runActs_result_succeed .resultBit _ (by exact hb), answer_of_upcoming (by exact hs)]
  simp [succeed, flagsSucceeded, act, zextBit, consume, issued, succeededAs, encode, show s.phase = .idle from h]

/-- A listener reads from a write slot the bit it was sent for: the low phases of a 1 and a 0 differ (R90). -/
theorem sentBits_writeSlotTrace (v : Bool) (rest : List LineAction) :
    sentBits (writeSlotTrace v ++ rest) = v :: sentBits rest := by
  have hlow : (lowTime v == Config.tW1l) = v := by cases v <;> decide
  simp [writeSlotTrace, sentBits, hlow]

/-- A listener reads from write slots the bits they were sent for, in order (R90, R92). -/
theorem sentBits_writeSlots (bits : List Bool) : sentBits (bits.flatMap writeSlotTrace) = bits := by
  induction bits with
  | nil => rfl
  | cons v bits ih => rw [List.flatMap_cons, sentBits_writeSlotTrace, ih]

/-- Settles O24: the segment is `WB(ARG0)`, whose bits make the byte again when they are the next answers. -/
theorem byteSurvivesTheWire : Obligations.ByteSurvivesTheWire := by
  intro s t hs ht
  have hbits : sentBits (writeByteTrace s.operandA) = byteBits s.operandA := sentBits_writeSlots _
  refine ⟨_, writeByteTrace s.operandA, writeByteSendsEightSlots.2 s hs, by simp [State.trace], hbits, ?_⟩
  exact fun hup => ⟨_, readByteReturnsTheSamples.2 t s.operandA ht (hup.trans hbits), rfl⟩

end Sys2Proof.Machine

/-!
PROOFS. The bus session: presence, and a selection with its wildcard and its rejected ROM codes (42_bus_session.md rules
R101 to R105; 60_exceptions.md rules R142, R144).
-/

namespace Sys2Proof.Machine

/-! An operation that begins with a reset pulse, from its issue to its end. -/

/-- The state in which an operation that begins with a reset pulse starts (R20, R43). -/
def sessionStart (i : Instr) (s : State) : State := issued (encode i) .resetPresence (programOf i) s

/-- The operation `i`, issued in `s`, has come to `w` and has written no result yet: the line is released, `tr` has gone out,
the environment has answered `n` samples, and the latches hold what the issue read. -/
structure SessionAt (i : Instr) (s : State) (n : Nat) (tr : List LineAction) (w : State) : Prop where
  oe : w.oe = false
  log : w.log = tr.reverse ++ s.log
  answered : Answered n s w
  latched : Latched (encode i) s w
  host : HostSideKept s w
  results : ResultsKept s w
  buf : w.buf = s.buf

section
variable {i : Instr} {s w : State} {n : Nat} {tr : List LineAction}

/-- A session that ends in success leaves what it has come to (R21). -/
theorem SessionAt.succeed (h : SessionAt i s n tr w) {t : State} (ht : t = { succeed w with todo := [] }) :
    EndedWith true t ∧ t.trace = s.trace ++ tr ∧ Answered n s t ∧ Latched (encode i) s t ∧ HostSideKept s t ∧
      ResultsKept s t ∧ t.buf = s.buf := by
  subst ht
  exact ⟨⟨rfl, rfl, h.oe, rfl⟩, by simp [State.trace, h.log], h.answered, h.latched, h.host, h.results, h.buf⟩

/-- A session that fails leaves it too, but for the registers the operation writes (R64, R142). -/
theorem SessionAt.fail (h : SessionAt i s n tr w) {c : Cause} {t : State} (ht : t = { fail c w with todo := [] }) :
    EndedWith false t ∧ t.cause = some c ∧ t.trace = s.trace ++ tr ∧ Answered n s t ∧ Latched (encode i) s t ∧
      HostSideKept s t ∧ FailedResults i s t := by
  subst ht
  have hresults := failedResults_of i c s w h.latched.1 (.inr h.results) (.inr h.buf)
  refine ⟨endedWith_fail c w, fail_cause c w, ?_, ?_, ?_, ?_, hresults⟩
  · simp [State.trace, releaseIfLow, h.oe, h.log]
  · simpa [Answered] using h.answered
  · simpa [Latched] using h.latched
  · simpa [HostSideKept] using h.host

/-- `RESET`, `SELECT` and `SELECT_ANY` write no result register, so a failure keeps them all (R64, R142). -/
theorem FailedResults.kept (hi : i ∈ [Instr.reset, .select, .selectAny]) (h : FailedResults i s w) :
    ResultsKept s w ∧ w.buf = s.buf := by
  have hnone : ∀ j ∈ [Instr.reset, .select, .selectAny],
      j ≠ .readTemperature ∧ j ∉ [Instr.readScratchpad, .readTemperature, .setResolution] := by decide
  obtain ⟨htemp, hbuf⟩ := hnone i hi
  rwa [FailedResults, if_neg htemp, if_neg hbuf] at h

/-- A session is its program run from its start (R43, R72). -/
theorem exec_session (hi : i ∈ sessionOperations) (h : Idle s) :
    exec i s = .next (run (programOf i) (sessionStart i s)) := by
  have hform : ∀ j ∈ sessionOperations, j.form ≠ .wire := by decide
  rw [exec_eq, startOf_opcode (hform i hi), operate_issue _ _ _ s h, firstPhase_of_session hi, sessionStart]

/-- A straight program begins with its first part. -/
theorem straight_isPrefix (p q : List Act) : straight p <+: straight (p ++ q) := by simp [straight]

/-- A session fails where the beginning of its program fails, whatever was to follow. -/
theorem exec_session_fails {p : List Act} {c : Cause} (hi : i ∈ sessionOperations) (h : Idle s)
    (hp : straight p <+: programOf i) (hf : runActs p (sessionStart i s) = fail c w) :
    exec i s = .next { fail c w with todo := [] } := by
  obtain ⟨rest, hrest⟩ := hp
  rw [exec_session hi h, ← hrest, run_straight_append _ _ _ rfl, hf, if_neg (by simp [fail_busy])]

/-- A session that has run its program up to the last micro-action succeeds (R9, R21). -/
theorem exec_session_succeeds {p : List Act} (hi : i ∈ sessionOperations) (h : Idle s)
    (hp : programOf i = straight (p ++ [.succeed])) (hw : runActs p (sessionStart i s) = w) (hb : w.busy = true) :
    exec i s = .next { succeed w with todo := [] } := by
  rw [exec_session hi h, hp, run_straight, runActs_then _ _ _ _ rfl hw hb, runActs_succeed]

end

/-! Presence (R100, R101). -/

/-- Every session begins with the reset pulse and the presence check (R101). -/
theorem presenceCheck_isPrefix {i : Instr} (hi : i ∈ sessionOperations) :
    straight (busReset ++ [.checkPresence]) <+: programOf i := by
  simp only [sessionOperations, List.mem_cons, List.not_mem_nil, or_false] at hi
  obtain rfl | rfl | rfl | rfl | rfl | rfl | rfl := hi <;> exact ⟨_, rfl⟩

/-- The reset pulse and the presence check, when the environment answers `b` (R100, R102). -/
theorem runActs_presenceCheck (i : Instr) {s : State} {b : Bool} (hs : s.upcoming 1 = [b]) :
    runActs (busReset ++ [.checkPresence]) (sessionStart i s) =
      failUnless (!b) .noPresence (afterBusReset (sessionStart i s)) := by
  rw [runActs_then _ _ _ _ rfl (runActs_busReset _) rfl, runActs_one, ← answer_of_upcoming hs]
  rfl

/-- After the reset pulse nothing but the waveform and the sample has happened (R100). -/
theorem sessionAt_afterBusReset (i : Instr) {s : State} {b : Bool} (hs : s.upcoming 1 = [b]) :
    SessionAt i s 1 (resetTrace b) (afterBusReset (sessionStart i s)) := by
  rw [← answer_of_upcoming hs]
  exact ⟨rfl, rfl, ⟨rfl, rfl⟩, ⟨rfl, rfl, rfl⟩, ⟨rfl, rfl, rfl, rfl⟩, ⟨rfl, rfl⟩, rfl⟩

/-- Settles O26: the presence check stands right behind the reset pulse in every session. -/
theorem absentDeviceEndsTheSession : Obligations.AbsentDeviceEndsTheSession := by
  intro i s hi h hs
  have hfail : runActs (busReset ++ [.checkPresence]) (sessionStart i s) =
      fail .noPresence (afterBusReset (sessionStart i s)) := runActs_presenceCheck i hs
  refine ⟨_, exec_session_fails hi h (presenceCheck_isPrefix hi) hfail, ?_⟩
  obtain ⟨hended, hcause, htrace, hanswered, hlatched, hhost, hresults⟩ := (sessionAt_afterBusReset i hs).fail rfl
  exact ⟨hended, hcause, htrace, hanswered, hlatched, hhost, hresults, fail_rom .noPresence _,
    fail_crcAcc .noPresence _, fail_sr .noPresence _, fail_bitcnt .noPresence _, fail_bytecnt .noPresence _⟩

/-- Settles O25: without a device `RESET` is a session without presence; with one it succeeds behind its pulse. -/
theorem resetOperationReportsPresence : Obligations.ResetOperationReportsPresence := by
  refine ⟨rfl, fun s b h hs => ?_⟩
  cases b with
  | true =>
    obtain ⟨t, ht, hended, -, htrace, hanswered, hlatched, hhost, hresults, hregs⟩ :=
      absentDeviceEndsTheSession .reset s (by decide) h hs
    obtain ⟨hkept, hbuf⟩ := hresults.kept (by decide)
    exact ⟨t, ht, hended, htrace, hanswered, hlatched, hhost, hkept, hbuf, hregs⟩
  | false =>
    have hpulse : runActs (busReset ++ [.checkPresence]) (sessionStart .reset s) = afterBusReset (sessionStart .reset s) :=
      runActs_presenceCheck .reset hs
    refine ⟨_, exec_session_succeeds (by decide) h rfl hpulse rfl, ?_⟩
    obtain ⟨hended, htrace, hanswered, hlatched, hhost, hkept, hbuf⟩ := (sessionAt_afterBusReset .reset hs).succeed rfl
    exact ⟨hended, htrace, hanswered, hlatched, hhost, hkept, hbuf, rfl, rfl, rfl, rfl, rfl⟩

/-! Selection (R102, R104, R105). -/

/-- Settles O28, by the law of a selection that succeeds. The wildcard stands for the family check. -/
theorem selectAnyAcceptsEveryFamily : Obligations.SelectAnyAcceptsEveryFamily := by
  intro s rom h hs hr
  have hsel : runActs (select .argA (.lit 0x00) true) (sessionStart .selectAny s) =
      selected rom s.operandA (sessionStart .selectAny s) :=
    runActs_select_ok _ _ _ rom _ rfl hs hr (fun _ => rfl) (.inl rfl)
  have hat : SessionAt .selectAny s 65 (selectTrace rom s.operandA)
      (selected rom s.operandA (sessionStart .selectAny s)) :=
    ⟨rfl, rfl, ⟨rfl, rfl⟩, ⟨rfl, rfl, rfl⟩, ⟨rfl, rfl, rfl, rfl⟩, ⟨rfl, rfl⟩, rfl⟩
  refine ⟨_, exec_session_succeeds (by decide) h rfl hsel rfl, ?_⟩
  obtain ⟨hended, htrace, hanswered, hlatched, hhost, hkept, hbuf⟩ := hat.succeed rfl
  exact ⟨hended, htrace, hanswered, hlatched, hhost, hkept, hbuf, rfl, rfl⟩

/-- `SELECT` or `SELECT_ANY` whose selection fails at the ROM code it has read (R102, R142). -/
theorem exec_selection_rejects {i : Instr} {cmd fam : Src} {any : Bool} {c : Cause} {rom : Vector Byte 8} {s : State}
    (hi : i = .select ∨ i = .selectAny) (h : Idle s) (hp : straight (select cmd fam any) <+: programOf i)
    (hf : runActs (select cmd fam any) (sessionStart i s) = fail c (withRom rom (sessionStart i s))) :
    ∃ t, exec i s = .next t ∧ EndedWith false t ∧ t.trace = s.trace ++ romTrace rom ∧ Answered 65 s t ∧
      Latched (encode i) s t ∧ HostSideKept s t ∧ ResultsKept s t ∧ t.buf = s.buf ∧ t.rom = rom ∧ t.cause = some c := by
  have hsession : i ∈ sessionOperations := by obtain rfl | rfl := hi <;> decide
  have hat : SessionAt i s 65 (romTrace rom) (withRom rom (sessionStart i s)) :=
    ⟨rfl, rfl, ⟨rfl, rfl⟩, ⟨rfl, rfl, rfl⟩, ⟨rfl, rfl, rfl, rfl⟩, ⟨rfl, rfl⟩, rfl⟩
  refine ⟨_, exec_session_fails hsession h hp hf, ?_⟩
  obtain ⟨hended, hcause, htrace, hanswered, hlatched, hhost, hresults⟩ := hat.fail rfl
  obtain ⟨hkept, hbuf⟩ := hresults.kept (by obtain rfl | rfl := hi <;> decide)
  exact ⟨hended, htrace, hanswered, hlatched, hhost, hkept, hbuf, fail_rom c _, hcause⟩

/-- Settles O29: the residue is checked first, and the family of a good ROM code only without the wildcard. -/
theorem selectRejectsTheRomCode : Obligations.SelectRejectsTheRomCode := by
  intro s rom h hs
  have hselect : straight (select .argA .argB false) <+: programOf .select := straight_isPrefix _ _
  have hany : straight (select .argA (.lit 0x00) true) <+: programOf .selectAny := straight_isPrefix _ _
  refine ⟨fun hbad => ?_, fun hr => ?_⟩
  · by_cases hr : residue rom.toList = 0x00
    · have hfamily : rom[0] ≠ s.operandB := hbad.resolve_left (not_not_intro hr)
      rw [if_pos hr]
      exact exec_selection_rejects (.inl rfl) h hselect (runActs_select_family _ _ rom _ rfl hs hr hfamily)
    · rw [if_neg hr]
      exact exec_selection_rejects (.inl rfl) h hselect (runActs_select_romCrc _ _ _ rom _ rfl hs hr)
  · exact exec_selection_rejects (.inr rfl) h hany (runActs_select_romCrc _ _ _ rom _ rfl hs hr)

end Sys2Proof.Machine

/-!
PROOFS. The CRC8 generator and its operation `CRC_UPDATE` (43_crc8.md rules R110 to R114). The constants of R110 are
marked in the spec as general knowledge (notes/assumptions/4.md).
-/

namespace Sys2Proof.Machine

/-! One turn of the loop (R110). -/

/-- A turn moves bit 0 to bit 7: the shift leaves bit 7 clear, and the feedback constant sets it. -/
theorem crcTurn_getLsbD_seven (t : Byte) : (crcTurn t).getLsbD 7 = t.getLsbD 0 := by
  unfold crcTurn
  split <;> simp_all

/-- A turn loses nothing: bit 7 of its result says whether the feedback constant is to be taken off again. -/
theorem crcTurn_injective : Function.Injective crcTurn := by
  intro s t h
  have hbit : s.getLsbD 0 = t.getLsbD 0 := by rw [← crcTurn_getLsbD_seven, h, crcTurn_getLsbD_seven]
  have hshift : s >>> 1 = t >>> 1 := by
    unfold crcTurn at h
    rw [hbit] at h
    split at h
    · exact (BitVec.xor_left_inj _).1 h
    · exact h
  refine BitVec.eq_of_getLsbD_eq fun i hi => ?_
  cases i with
  | zero => exact hbit
  | succ i => simpa [Nat.add_comm] using congrArg (·.getLsbD i) hshift

/-- The loop loses nothing. -/
theorem crcTurns_injective (n : Nat) : Function.Injective (crcTurns n) := by
  induction n with
  | zero => exact Function.injective_id
  | succ n ih => exact ih.comp crcTurn_injective

/-- The loop keeps zero at zero. -/
theorem crcTurns_zero (n : Nat) : crcTurns n 0x00 = 0x00 := by
  induction n with
  | zero => rfl
  | succ n ih => exact ih

/-- A turn on `t ^^^ x` is the bit-serial step on bit 0 of `x`, with the bits of `x` above it still to come. -/
theorem crcTurn_xor (t x : Byte) : crcTurn (t ^^^ x) = crcBit t (x.getLsbD 0) ^^^ (x >>> 1) := by
  unfold crcTurn crcBit
  rw [BitVec.getLsbD_xor, BitVec.ushiftRight_xor_distrib]
  split
  · rw [BitVec.xor_assoc, BitVec.xor_assoc, BitVec.xor_comm (x >>> 1)]
  · rfl

/-- `n` turns on `t ^^^ x` are `n` bit-serial steps on the low bits of `x`, with the rest of `x` still to come. -/
theorem crcTurns_xor (n : Nat) (t x : Byte) :
    crcTurns n (t ^^^ x) = ((List.range n).map x.getLsbD).foldl crcBit t ^^^ (x >>> n) := by
  induction n generalizing t x with
  | zero => simp [crcTurns]
  | succ n ih =>
    have htail : (List.range n).map (x >>> 1).getLsbD = ((List.range n).map Nat.succ).map x.getLsbD := by
      simp [Nat.add_comm]
    rw [crcTurns, crcTurn_xor, ih, htail, ← BitVec.shiftRight_add, Nat.add_comm 1 n, List.range_succ_eq_map,
      List.map_cons, List.foldl_cons]

/-! The update and its folds (R110, R112). -/

/-- The fold with one more byte at the front. -/
theorem crc8_cons (c x : Byte) (m : List Byte) : crc8 c (x :: m) = crc8 (crc8Update c x) m := rfl

/-- The fold over two lists, one behind the other. -/
theorem crc8_append (c : Byte) (m n : List Byte) : crc8 c (m ++ n) = crc8 (crc8 c m) n := List.foldl_append

/-- A register updated with its own value is 0x00. -/
theorem crc8Update_self (c : Byte) : crc8Update c c = 0x00 := by
  rw [crc8Update, BitVec.xor_self]
  exact crcTurns_zero 8

/-- Different registers stay different under the same byte. -/
theorem crc8Update_injective_register (x : Byte) : Function.Injective (crc8Update · x) :=
  fun _ _ h => (BitVec.xor_left_inj x).1 (crcTurns_injective 8 h)

/-- Different bytes make one register different. -/
theorem crc8Update_injective_byte (c : Byte) : Function.Injective (crc8Update c) :=
  fun _ _ h => (BitVec.xor_right_inj c).1 (crcTurns_injective 8 h)

/-- Different registers stay different under the same bytes. -/
theorem crc8_injective (m : List Byte) : Function.Injective (crc8 · m) := by
  induction m with
  | nil => exact Function.injective_id
  | cons x m ih => exact ih.comp (crc8Update_injective_register x)

/-- The pattern of a single flipped bit is not zero. -/
theorem oneBit_ne_zero {k : Nat} (hk : k < 8) : (1 <<< k : Byte) ≠ 0x00 := by
  interval_cases k <;> decide

/-- The table of R111 lists what the loop makes of 0 to 255. -/
theorem crcTable_eq_map : crcTable = (List.range 256).map fun n => crcTurns 8 (BitVec.ofNat 8 n) := by
  decide +kernel

/-- Settles O30: the table lists the values of the loop, and the entry `c ^ x` is its value at `c ^ x`. -/
theorem crcLoopIsTheTable : Obligations.CrcLoopIsTheTable := by
  refine ⟨by rw [crcTable_eq_map, List.length_map, List.length_range], fun c x => ?_⟩
  have hlt : (c ^^^ x).toNat < 256 := (c ^^^ x).isLt
  rw [crcTable_eq_map, List.getElem?_map, List.getElem?_range hlt, Option.map_some, BitVec.ofNat_toNat,
    BitVec.setWidth_eq, crc8Update]

/-- Settles O31: after eight turns no bit of `x` is still to come. -/
theorem crcBitSerialIsBytewise : Obligations.CrcBitSerialIsBytewise := by
  intro c x
  have hbits : byteBits x = (List.range 8).map x.getLsbD := rfl
  have hrest : x >>> 8 = 0#8 := BitVec.ushiftRight_eq_zero (Nat.le_refl 8)
  rw [crc8Update, crcTurns_xor, ← hbits, hrest, BitVec.xor_zero]

/-- Settles O32: the last update is of the register with its own value. -/
theorem checkByteGivesZeroResidue : Obligations.CheckByteGivesZeroResidue := by
  intro c m
  rw [crc8_append, crc8_cons, crc8Update_self]
  rfl

/-- Settles O33: the registers differ behind the flipped byte, and the bytes at the back keep them different. -/
theorem crcDetectsSingleBitErrors : Obligations.CrcDetectsSingleBitErrors := by
  intro front back x k hk hzero hflip
  rw [residue, crc8_append, crc8_cons] at hzero hflip
  have hregister : crc8Update (crc8 0x00 front) (x ^^^ 1 <<< k) = crc8Update (crc8 0x00 front) x :=
    crc8_injective back (hflip.trans hzero.symm)
  have hbyte : x ^^^ 1 <<< k = x := crc8Update_injective_byte _ hregister
  exact oneBit_ne_zero hk ((BitVec.xor_right_inj x).1 (hbyte.trans BitVec.xor_zero.symm))

/-- Settles O34, by the program of the operation. It does not touch `oe`, also when that was 1
(notes/assumptions/16.md). -/
theorem crcUpdateIsPure : Obligations.CrcUpdateIsPure := by
  intro s h
  have hb := issued_busy (encode .crcUpdate) .direct (straight [.resultCrc, .succeed]) s (by simp)
  rw [exec_crcUpdate s h, ran, runActs_result_succeed .resultCrc _ (by exact hb)]
  simp [succeed, flagsSucceeded, act, issued, succeededAs, encode, show s.phase = .idle from h]

end Sys2Proof.Machine

/-!
PROOFS. The DS18B20 sequencer: what a stretch of its operations leaves as it was, a ROM code that it does not accept,
`READ_SCRATCHPAD` and `WRITE_SCRATCHPAD` (44_ds18b20.md rules R120 to R122, R124, R125; 60_exceptions.md rules R142, R144).
-/

namespace Sys2Proof.Machine

/-! What a stretch of an operation leaves as it was. -/

/-- From `s` to `w` an operation has gone on and has written no result register: the line is released, `tr` has gone out, and
the environment has answered `n` samples. `BUF` is not spoken of: a scratchpad read fills it. -/
structure Stretch (n : Nat) (tr : List LineAction) (s w : State) : Prop where
  oe : w.oe = false
  log : w.log = tr.reverse ++ s.log
  answered : Answered n s w
  opL : w.opL = s.opL
  aL : w.aL = s.aL
  bL : w.bL = s.bL
  host : HostSideKept s w
  results : ResultsKept s w

theorem Answered.trans {m n : Nat} {s u w : State} (h : Answered m s u) (g : Answered n u w) : Answered (m + n) s w := by
  obtain ⟨hscript, hdraws⟩ := h
  rw [Answered, ← consume_consume]
  simpa only [Answered, consume, hscript, hdraws] using g

section
variable {m n : Nat} {tr tr' : List LineAction} {s u w : State} {b : Vector Content 9}

theorem Stretch.trans (h : Stretch m tr s u) (g : Stretch n tr' u w) : Stretch (m + n) (tr ++ tr') s w where
  oe := g.oe
  log := by rw [g.log, h.log]; simp
  answered := h.answered.trans g.answered
  opL := g.opL.trans h.opL
  aL := g.aL.trans h.aL
  bL := g.bL.trans h.bL
  host := by
    obtain ⟨h0, h1, h2, h3⟩ := h.host
    obtain ⟨g0, g1, g2, g3⟩ := g.host
    exact ⟨g0.trans h0, g1.trans h1, g2.trans h2, g3.trans h3⟩
  results := ⟨g.results.1.trans h.results.1, g.results.2.trans h.results.2⟩

/-- A stretch from the start of an operation is what the operation has come to. The state of the issue is taken with the
`BUF` of now: nothing else that `SessionAt` says looks at `BUF`. -/
theorem Stretch.sessionAt {i : Instr} (h : Stretch n tr (sessionStart i s) w) (hb : w.buf = b) :
    SessionAt i { s with buf := b } n tr w :=
  ⟨h.oe, h.log, h.answered, ⟨h.opL, h.aL, h.bL⟩, h.host, h.results, hb⟩

/-- A stretch from the end of the poll is what `READ_TEMPERATURE` has come to (R126). -/
theorem Stretch.sessionAt_converted {rom : Vector Byte 8} {zeros : Nat} {more : List Bool}
    (h : Stretch n tr (converted rom zeros more s) w) (hb : w.buf = b)
    (hp : s.script.drop 65 = List.replicate zeros false ++ true :: more) :
    SessionAt .readTemperature { s with script := more, buf := b } n
      (selectTrace rom 0x44 ++ pollTrace zeros ++ readSlotTrace true ++ tr) w where
  oe := h.oe
  log := by rw [h.log]; simp [converted, polled, selected, issued]
  answered := ⟨h.answered.1, h.answered.2.trans (congrArg (· + (n - more.length)) (converted_draws hp))⟩
  latched := ⟨h.opL, h.aL, h.bL⟩
  host := h.host
  results := h.results
  buf := hb

/-- Where an operation writes `BUF` on success, its failure does not look at what `BUF` held (R64, R142). -/
theorem FailedResults.of_any_buf {i : Instr} (hi : i ∈ [Instr.readScratchpad, .readTemperature, .setResolution])
    (h : FailedResults i { s with buf := b } w) : FailedResults i s w := by
  rw [FailedResults, if_pos hi] at h ⊢
  exact h

end

theorem stretch_selected (rom : Vector Byte 8) (cmd : Byte) (s : State) :
    Stretch 65 (selectTrace rom cmd) s (selected rom cmd s) :=
  ⟨rfl, rfl, ⟨rfl, rfl⟩, rfl, rfl, rfl, ⟨rfl, rfl, rfl, rfl⟩, ⟨rfl, rfl⟩⟩

theorem stretch_withRom (rom : Vector Byte 8) (s : State) : Stretch 65 (romTrace rom) s (withRom rom s) :=
  ⟨rfl, rfl, ⟨rfl, rfl⟩, rfl, rfl, rfl, ⟨rfl, rfl, rfl, rfl⟩, ⟨rfl, rfl⟩⟩

theorem stretch_withImage (rom : Vector Byte 8) (img : Vector Byte 9) (s : State) :
    Stretch 137 (readScratchpadTrace rom img) s (withImage rom img s) :=
  ⟨rfl, rfl, ⟨rfl, rfl⟩, rfl, rfl, rfl, ⟨rfl, rfl, rfl, rfl⟩, ⟨rfl, rfl⟩⟩

theorem stretch_withWritten (rom : Vector Byte 8) (s : State) :
    Stretch 65 (writeScratchpadTrace rom (highNow s) (lowNow s) (configNow s)) s (withWritten rom s) :=
  ⟨rfl, rfl, ⟨rfl, rfl⟩, rfl, rfl, rfl, ⟨rfl, rfl, rfl, rfl⟩, ⟨rfl, rfl⟩⟩

/-- Where an operation does not write `RES0` and `RES1`, its failure keeps them (R64, R142). -/
theorem FailedResults.resultsKept {i : Instr} {s w : State} (hi : i ≠ .readTemperature) (h : FailedResults i s w) :
    ResultsKept s w := by
  rw [FailedResults, if_neg hi] at h
  exact h.1

/-! A selection of U3 that fails (R120, R144). -/

/-- A selection that fails, whatever was to follow it: the stretch up to the failure, with `BUF` as before. -/
theorem selectDs_fails_after (cmd : Instr) (q : List Act) {s : State} {bits : List Bool} {tr : List LineAction} {c : Cause}
    (hb : s.busy = true) (hf : SessionFails bits tr c) (hs : s.upcoming bits.length = bits) :
    ∃ w, runActs (selectDs cmd ++ q) s = fail c w ∧ Stretch bits.length tr s w ∧ w.buf = s.buf := by
  obtain ⟨w, hw, hoe, hlog, hopL, haL, hbL, hhost, hresults, hbuf, -, hanswered⟩ :=
    runActs_selectDs_fails cmd q s bits tr c hb hf hs
  exact ⟨w, hw, ⟨hoe, hlog, hanswered, hopL, haL, hbL, hhost, hresults⟩, hbuf⟩

/-- A ROM code that U3 does not accept ends the selection after its eight bytes; the residue is checked first (R102). -/
theorem runActs_selectDs_rejects (cmd : Instr) {rom : Vector Byte 8} {s : State} (hb : s.busy = true)
    (hs : s.upcoming 65 = selectAnswers rom) (hr : ¬ DsRomOk rom) :
    runActs (selectDs cmd) s =
      fail (if residue rom.toList = 0x00 then .familyMismatch else .romCrc) (withRom rom s) := by
  by_cases h0 : residue rom.toList = 0x00
  · rw [if_pos h0]
    exact runActs_select_family _ _ rom s hb hs h0 (fun hfamily => hr ⟨h0, hfamily⟩)
  · rw [if_neg h0]
    exact runActs_select_romCrc _ _ _ rom s hb hs h0

/-- Each operation of U3 begins with a selection (R120). -/
theorem selectDs_isPrefix {i : Instr} (hi : i ∈ [Instr.readScratchpad, .writeScratchpad, .readTemperature, .setResolution]) :
    ∃ cmd, straight (selectDs cmd) <+: programOf i := by
  simp only [List.mem_cons, List.not_mem_nil, or_false] at hi
  obtain rfl | rfl | rfl | rfl := hi
  · exact ⟨.readScratchpadCmd, _, programOf_readScratchpad.symm⟩
  · exact ⟨.writeScratchpadCmd, _, programOf_writeScratchpad.symm⟩
  · exact ⟨.convertT, (straight_isPrefix _ _).trans (List.prefix_append _ _)⟩
  · exact ⟨.readScratchpadCmd, by simp [programOf, readScratchpad, straight]⟩

/-- Settles O38: the first selection rejects the ROM code. -/
theorem dsOperationsRejectTheRomCode : Obligations.DsOperationsRejectTheRomCode := by
  intro s rom i hi h hs hr
  have hsession : i ∈ sessionOperations := by revert i; decide
  obtain ⟨cmd, hprefix⟩ := selectDs_isPrefix hi
  have hreject := runActs_selectDs_rejects cmd (s := sessionStart i s) rfl hs hr
  generalize (if residue rom.toList = 0x00 then Cause.familyMismatch else .romCrc) = c at hreject ⊢
  refine ⟨_, exec_session_fails hsession h hprefix hreject, ?_⟩
  obtain ⟨hended, hcause, htrace, hanswered, hlatched, hhost, hresults⟩ :=
    ((stretch_withRom rom (sessionStart i s)).sessionAt rfl).fail (c := c) rfl
  exact ⟨hended, htrace, hanswered, hlatched, fail_rom c _, hhost, hresults, hcause⟩

/-! `READ_SCRATCHPAD` and `WRITE_SCRATCHPAD` (R121, R122, R124, R125). -/

theorem exec_readScratchpad_ok {s : State} {rom : Vector Byte 8} {img : Vector Byte 9} (h : Idle s)
    (hs : s.upcoming 137 = selectAnswers rom ++ bytesBits img.toList) (hr : DsRomOk rom) (hi : ImageOk img) :
    exec .readScratchpad s = .next { succeed (withImage rom img (sessionStart .readScratchpad s)) with todo := [] } :=
  exec_session_succeeds (by decide) h rfl (runActs_readScratchpad_ok rom img _ rfl hs hr hi) rfl

/-- Settles O35, by the law of a scratchpad read that succeeds. -/
theorem readScratchpadFillsTheBuffer : Obligations.ReadScratchpadFillsTheBuffer := by
  intro s rom img h hs hr hi
  refine ⟨_, exec_readScratchpad_ok h hs hr hi, ?_⟩
  obtain ⟨hended, htrace, hanswered, hlatched, hhost, hresults, hbuf⟩ :=
    ((stretch_withImage rom img (sessionStart .readScratchpad s)).sessionAt rfl).succeed rfl
  exact ⟨hended, hbuf, htrace, hanswered, hlatched, hhost, hresults⟩

/-- Settles O37, by the law of a scratchpad write that succeeds. -/
theorem writeScratchpadSendsThreeBytes : Obligations.WriteScratchpadSendsThreeBytes := by
  intro s rom h hs hr
  have hwrite := runActs_writeScratchpad_ok rom (sessionStart .writeScratchpad s) rfl hs hr
  refine ⟨_, exec_session_succeeds (by decide) h rfl hwrite rfl, ?_⟩
  obtain ⟨hended, htrace, hanswered, hlatched, hhost, hresults, hbuf⟩ :=
    ((stretch_withWritten rom (sessionStart .writeScratchpad s)).sessionAt rfl).succeed rfl
  exact ⟨hended, hbuf, htrace, hanswered, hlatched, hhost, hresults⟩

end Sys2Proof.Machine

/-!
PROOFS. The poll, `READ_TEMPERATURE` that does not come to its end, and a scratchpad that is not intact (44_ds18b20.md rules
R121, R123, R126; 60_exceptions.md rules R131, R144, R146).
-/

namespace Sys2Proof.Machine

/-! The poll (R123). -/

/-- For `n` steps the phase and the flags stay. -/
def KeepsFlags (n : Nat) (s : State) : Prop := ∀ m, m ≤ n → (tick^[m] s).phase = s.phase ∧ (tick^[m] s).ok = s.ok

theorem KeepsFlags.trans {n k : Nat} {s : State} (h : KeepsFlags n s) (g : KeepsFlags k (tick^[n] s)) :
    KeepsFlags (k + n) s := by
  intro m hm
  by_cases hle : m ≤ n
  · exact h m hle
  · obtain ⟨j, rfl⟩ : ∃ j, m = j + n := ⟨m - n, by omega⟩
    obtain ⟨hphase, hok⟩ := h n (Nat.le_refl n)
    obtain ⟨hphase', hok'⟩ := g j (by omega)
    rw [Function.iterate_add_apply]
    exact ⟨hphase'.trans hphase, hok'.trans hok⟩

/-- Behind `n` answers come the answers after them. -/
theorem Answered.upcoming {n : Nat} {s u : State} (h : Answered n s u) (k : Nat) :
    u.upcoming k = (consume n s).upcoming k := upcoming_congr h.1 h.2 k

/-- One turn of the poll, by the answer that comes (R123). -/
theorem poll_turn {rest : List Micro} {s : State} {b : Bool} (hb : s.busy = true) (ht : s.todo = .poll :: rest)
    (hs : s.upcoming 1 = [b]) :
    ∃ n, 0 < n ∧ KeepsFlags n s ∧ (tick^[n] s).todo = (if b then rest else .poll :: rest) ∧ Answered 1 s (tick^[n] s) ∧
      (tick^[n] s).trace = s.trace ++ readSlotTrace b := by
  obtain ⟨n, hpos, hkeep, htick⟩ := poll_slot rest s hb ht
  rw [answer_of_upcoming hs] at htick
  exact ⟨n, hpos, hkeep, by rw [htick], by rw [htick]; exact ⟨rfl, rfl⟩, by simp [htick, State.trace]⟩

/-- The poll goes on slot after slot as long as zeros come (R123, R146). -/
theorem poll_zeros {rest : List Micro} (zeros : Nat) {s : State} (hb : s.busy = true) (ht : s.todo = .poll :: rest)
    (hs : s.upcoming zeros = List.replicate zeros false) :
    ∃ n, zeros ≤ n ∧ KeepsFlags n s ∧ (tick^[n] s).todo = .poll :: rest ∧ Answered zeros s (tick^[n] s) ∧
      (tick^[n] s).trace = s.trace ++ pollTrace zeros := by
  induction zeros generalizing s with
  | zero =>
    refine ⟨0, Nat.le_refl 0, fun m hm => ?_, ht, by simp [Answered, consume_zero], by simp [pollTrace]⟩
    obtain rfl : m = 0 := Nat.le_zero.1 hm
    exact ⟨rfl, rfl⟩
  | succ zeros ih =>
    rw [Nat.add_comm, List.replicate_add] at hs
    obtain ⟨hs1, hs2⟩ := upcoming_split hs (by simp)
    obtain ⟨n, hpos, hkeep, htodo, hanswered, htrace⟩ := poll_turn hb ht hs1
    have hbusy : (tick^[n] s).busy = true := by rw [State.busy, (hkeep n (Nat.le_refl n)).1]; exact hb
    obtain ⟨k, hle, hkeep', htodo', hanswered', htrace'⟩ := ih hbusy htodo ((hanswered.upcoming zeros).trans hs2)
    rw [← Function.iterate_add_apply] at htodo' hanswered' htrace'
    refine ⟨k + n, by omega, hkeep.trans hkeep', htodo', ?_, ?_⟩
    · rw [Nat.add_comm zeros 1]
      exact hanswered.trans hanswered'
    · rw [htrace', htrace]
      simp [pollTrace, List.replicate_succ]

/-- Settles O41: slot after slot, by the answers. -/
theorem pollEndsOnlyAtAOne : Obligations.PollEndsOnlyAtAOne := by
  intro s rest hb ht
  refine ⟨fun zeros hs => poll_zeros zeros hb ht hs, fun hs => ?_⟩
  obtain ⟨n, -, hkeep, htodo, hanswered, htrace⟩ := poll_turn hb ht hs
  exact ⟨n, hkeep, htodo, hanswered, htrace⟩

/-! `READ_TEMPERATURE` that does not come to its end (R126, R131, R146). -/

/-- `READ_TEMPERATURE` whose listed answers end in the poll (R123, R146). -/
theorem exec_readTemperature_unfinished {rom : Vector Byte 8} {zeros : Nat} {s : State} (h : Idle s)
    (hs : s.upcoming 65 = selectAnswers rom) (hr : DsRomOk rom) (hp : s.script.drop 65 = List.replicate zeros false) :
    exec .readTemperature s = .next
      { polling zeros { selected rom 0x44 (sessionStart .readTemperature s) with phase := .dataTransfer } with
        todo := .poll :: straight (readScratchpad ++ [.resultTemperature, .succeed]) } := by
  have hsession : runActs (selectDs .convertT ++ [.enter .dataTransfer]) (sessionStart .readTemperature s) =
      { selected rom 0x44 (sessionStart .readTemperature s) with phase := .dataTransfer } :=
    runActs_then _ _ _ _ rfl (runActs_selectDs_ok _ rom _ rfl hs hr) rfl
  rw [exec_session (by decide) h, programOf, run_straight_append _ _ _ rfl, hsession,
    if_pos (show State.busy _ = true from rfl), run, pollLoop_goes_on zeros _ rfl (by exact hp)]
  rfl

/-- Settles O40: the Convert session, and a poll that goes on. -/
theorem unfinishedConversionKeepsTheBlockBusy : Obligations.UnfinishedConversionKeepsTheBlockBusy := by
  intro s rom zeros h hs hr hp
  have hstatus : (0x01 ||| 0x00 : Byte) = 0x01 := by decide
  refine ⟨_, exec_readTemperature_unfinished h hs hr hp, rfl, hstatus, rfl, rfl, rfl, ?_, ⟨rfl, rfl, rfl, rfl⟩,
    ⟨rfl, rfl⟩, rfl⟩
  simp [State.trace, polling, selected, sessionStart, issued]

/-- Settles O45: the second selection fails, and the scratchpad read ends there. -/
theorem readTemperatureAbortsAfterThePoll : Obligations.ReadTemperatureAbortsAfterThePoll := by
  intro s rom zeros more bits tr c h hs hr hp hf hs'
  obtain ⟨w, hfail, hstretch, hbuf⟩ := selectDs_fails_after .readScratchpadCmd
    ([.enter .dataTransfer] ++ (readImage ++ ([.checkScratchpad] ++ [.resultTemperature, .succeed])))
    (s := converted rom zeros more s) rfl hf ((converted_upcoming hp _).trans hs')
  refine ⟨_, exec_readTemperature_converted h hs hr hp, ?_⟩
  simp only [readScratchpad, List.append_assoc, hfail]
  obtain ⟨hended, hcause, htrace, hanswered, hlatched, hhost, hresults⟩ :=
    (hstretch.sessionAt_converted rfl hp).fail (c := c) rfl
  exact ⟨hended, hcause, htrace.trans (by simp [State.trace]), hanswered, hlatched, hhost, hresults.of_any_buf (by decide)⟩

/-! A scratchpad that is not intact (R121). -/

/-- `READ_SCRATCHPAD` and `SET_RESOLUTION` begin with a scratchpad read; one whose validation fails ends them. -/
theorem exec_fails_at_scratchpad {i : Instr} {s : State} {rom : Vector Byte 8} {img : Vector Byte 9}
    (hi : i ∈ [Instr.readScratchpad, .setResolution]) (h : Idle s)
    (hs : s.upcoming 137 = selectAnswers rom ++ bytesBits img.toList) (hr : DsRomOk rom) (hbad : ¬ ImageOk img) :
    ∃ t, exec i s = .next t ∧ t.rom = rom ∧ EndedWith false t ∧ t.cause = some .scratchpadCrc ∧
      t.trace = s.trace ++ readScratchpadTrace rom img ∧ Answered 137 s t ∧ Latched (encode i) s t ∧ HostSideKept s t ∧
      FailedResults i s t := by
  have hsession : i ∈ sessionOperations := by revert i; decide
  have hwrites : i ∈ [Instr.readScratchpad, .readTemperature, .setResolution] := by revert i; decide
  have hprefix : straight readScratchpad <+: programOf i := by
    simp only [List.mem_cons, List.not_mem_nil, or_false] at hi
    obtain rfl | rfl := hi
    · exact straight_isPrefix _ _
    · simp [programOf, straight]
  obtain ⟨hended, hcause, htrace, hanswered, hlatched, hhost, hresults⟩ :=
    ((stretch_withImage rom img (sessionStart i s)).sessionAt rfl).fail (c := .scratchpadCrc) rfl
  exact ⟨_, exec_session_fails hsession h hprefix (runActs_readScratchpad_crc rom img _ rfl hs hr hbad),
    fail_rom .scratchpadCrc _, hended, hcause, htrace, hanswered, hlatched, hhost, hresults.of_any_buf hwrites⟩

/-- So does the scratchpad read of `READ_TEMPERATURE`, behind the poll. -/
theorem exec_readTemperature_fails_at_scratchpad {s : State} {rom rom' : Vector Byte 8} {img : Vector Byte 9} {zeros : Nat}
    {more : List Bool} (h : Idle s) (hs : s.upcoming 65 = selectAnswers rom) (hr : DsRomOk rom)
    (hp : s.script.drop 65 = List.replicate zeros false ++ true :: more)
    (hs' : { s with script := more }.upcoming 137 = selectAnswers rom' ++ bytesBits img.toList) (hr' : DsRomOk rom')
    (hbad : ¬ ImageOk img) :
    ∃ t, exec .readTemperature s = .next t ∧ t.rom = rom' ∧ EndedWith false t ∧ t.cause = some .scratchpadCrc ∧
      t.trace = s.trace ++ selectTrace rom 0x44 ++ pollTrace zeros ++ readSlotTrace true ++
        readScratchpadTrace rom' img ∧
      Answered 137 { s with script := more } t ∧ Latched 0x42 s t ∧ HostSideKept s t ∧
      FailedResults .readTemperature s t := by
  have hread := runActs_readScratchpad_crc rom' img (converted rom zeros more s) rfl ((converted_upcoming hp 137).trans hs')
    hr' hbad
  refine ⟨_, exec_readTemperature_converted h hs hr hp, ?_⟩
  rw [runActs_ends _ _ _ _ rfl hread (fail_busy _ _)]
  obtain ⟨hended, hcause, htrace, hanswered, hlatched, hhost, hresults⟩ :=
    ((stretch_withImage rom' img (converted rom zeros more s)).sessionAt_converted rfl hp).fail (c := .scratchpadCrc) rfl
  exact ⟨fail_rom .scratchpadCrc _, hended, hcause, htrace.trans (by simp [State.trace]), hanswered, hlatched, hhost,
    hresults.of_any_buf (by decide)⟩

/-- Settles O36, by the build parameter: the validation fails, or nothing is checked. -/
theorem corruptScratchpadFailsWhereValidated : Obligations.CorruptScratchpadFailsWhereValidated := by
  intro s rom img h hr hcorrupt
  cases he : Config.spadCrcEn with
  | true =>
    have hbad : ¬ ImageOk img := fun hi => hcorrupt (hi he)
    refine ⟨fun hs => ?_, fun rom' zeros more hr' hs' hp hs => ?_⟩
    · obtain ⟨t, ht, hrom, hended, hcause, htrace, hanswered, hlatched, hhost, hresults⟩ :=
        exec_fails_at_scratchpad (i := .readScratchpad) (by decide) h hs hr hbad
      obtain ⟨t', ht', hrom', hended', hcause', htrace', hanswered', hlatched', hhost', hresults'⟩ :=
        exec_fails_at_scratchpad (i := .setResolution) (by decide) h hs hr hbad
      exact ⟨t, t', ht, ht', htrace, hanswered, hlatched, hrom, hhost, hresults.resultsKept (by decide), by simp,
        fun _ => ⟨hended, hcause, hresults, hended', hcause', hresults', htrace', hanswered', hlatched', hrom', hhost'⟩⟩
    · obtain ⟨t, ht, hrom, hended, hcause, htrace, hanswered, hlatched, hhost, hresults⟩ :=
        exec_readTemperature_fails_at_scratchpad h hs' hr' hp hs hr hbad
      exact ⟨t, ht, htrace, hanswered, hlatched, hrom, hhost, by simp, fun _ => ⟨hended, hcause, hresults⟩⟩
  | false =>
    have hi : ImageOk img := fun htrue => absurd (he.symm.trans htrue) (by simp)
    refine ⟨fun hs => ?_, fun rom' zeros more hr' hs' hp hs => ?_⟩
    · obtain ⟨hended, htrace, hanswered, hlatched, hhost, hresults, hbuf⟩ :=
        ((stretch_withImage rom img (sessionStart .readScratchpad s)).sessionAt rfl).succeed rfl
      exact ⟨_, _, exec_readScratchpad_ok h hs hr hi, exec_eq _ _, htrace, hanswered, hlatched, rfl, hhost, hresults,
        fun _ => ⟨hended, hbuf⟩, by simp⟩
    · have hread := runActs_reading rom img (converted rom' zeros more s) rfl ((converted_upcoming hp 137).trans hs) hr hi
      obtain ⟨hended, htrace, hanswered, hlatched, hhost, -, hbuf⟩ :=
        ((stretch_withImage rom img (converted rom' zeros more s)).sessionAt_converted rfl hp).succeed rfl
      refine ⟨_, exec_readTemperature_converted h hs' hr' hp, ?_⟩
      rw [hread]
      exact ⟨htrace.trans (by simp [State.trace]), hanswered, hlatched, rfl, hhost, fun _ => ⟨hended, rfl, rfl, hbuf⟩,
        by simp⟩

end Sys2Proof.Machine

/-!
PROOFS. `SET_RESOLUTION`: its two paths, its later sessions, the same operation done again; and the temperature as an integer
(44_ds18b20.md rules R127 to R130; 60_exceptions.md rules R131, R144).
-/

namespace Sys2Proof.Machine

/-! `SET_RESOLUTION` (R127). -/

section
variable {s u : State} {rom rom' : Vector Byte 8} {img : Vector Byte 9}

theorem selectAnswers_length (rom : Vector Byte 8) : (selectAnswers rom).length = 65 := by
  simp [selectAnswers, bytesBits_length]

theorem readAnswers_length (rom : Vector Byte 8) (img : Vector Byte 9) :
    (selectAnswers rom ++ bytesBits img.toList).length = 137 := by
  simp [selectAnswers_length, bytesBits_length]

/-- What stands behind the change of the resolution field: the write session and, with the persist operand, the copy. -/
def writeBack : List Act := writeScratchpad ++ .succeedUnlessPersist :: (selectDs .copyScratchpad ++ [.succeed])

/-- The state after a scratchpad read and the change of the resolution field. -/
def configured (rom : Vector Byte 8) (img : Vector Byte 9) (s : State) : State := setConfig (withImage rom img s)

/-- The scratchpad image with the new resolution field. -/
def newImage (img : Vector Byte 9) (s : State) : Vector Byte 9 :=
  img.set 4 (withResolution img[4] (resolutionOperand s.aL))

theorem configured_buf : (configured rom img s).buf = heldImage (newImage img s) := by
  have himage : (withImage rom img s).image = img := image_of_held rfl
  rw [configured, setConfig_buf, himage, newImage, heldImage, Vector.map_set]
  rfl

theorem stretch_configured (rom : Vector Byte 8) (img : Vector Byte 9) (s : State) :
    Stretch 137 (readScratchpadTrace rom img) s (configured rom img s) :=
  ⟨rfl, rfl, ⟨rfl, rfl⟩, rfl, rfl, rfl, ⟨rfl, rfl, rfl, rfl⟩, ⟨rfl, rfl⟩⟩

/-- The write session sends the alarm bytes as read, and the new configuration byte. -/
theorem stretch_rewritten (rom rom' : Vector Byte 8) (img : Vector Byte 9) (s : State) :
    Stretch 202 (readScratchpadTrace rom img ++
      writeScratchpadTrace rom' img[2] img[3] (withResolution img[4] (resolutionOperand s.aL)))
      s (withWritten rom' (configured rom img s)) := by
  obtain ⟨hhigh, hlow, hconfig⟩ := written_of_held (configured_buf (rom := rom) (img := img) (s := s))
  have h := (stretch_configured rom img s).trans (stretch_withWritten rom' (configured rom img s))
  rw [hhigh, hlow, hconfig] at h
  simpa [newImage] using h

/-- `SET_RESOLUTION` that has read a scratchpad it accepts goes on to its decision. -/
theorem exec_setResolution_read (h : Idle s) (hs : s.upcoming 137 = selectAnswers rom ++ bytesBits img.toList)
    (hr : DsRomOk rom) (hi : ImageOk img) :
    exec .setResolution s = .next
      { runActs (.succeedIfSame :: .setConfig :: writeBack) (withImage rom img (sessionStart .setResolution s)) with
        todo := [] } := by
  have hp : programOf .setResolution = straight (readScratchpad ++ .succeedIfSame :: .setConfig :: writeBack) := by
    simp [programOf, writeBack]
  rw [exec_session (by decide) h, hp, run_straight,
    runActs_then _ _ (sessionStart .setResolution s) _ rfl (runActs_readScratchpad_ok rom img _ rfl hs hr hi) rfl]

/-- The fast path: nothing is written. -/
theorem exec_setResolution_same (h : Idle s) (hs : s.upcoming 137 = selectAnswers rom ++ bytesBits img.toList)
    (hr : DsRomOk rom) (hi : ImageOk img) (hf : resolutionField img[4] = resolutionOperand s.operandA) :
    exec .setResolution s = .next { succeed (withImage rom img (sessionStart .setResolution s)) with todo := [] } := by
  have himage : (withImage rom img (sessionStart .setResolution s)).image = img := image_of_held rfl
  rw [exec_setResolution_read h hs hr hi, runActs_sameField _ _ (by rw [himage]; exact hf)]

/-- The other path: the field changes, and the scratchpad is written back. -/
theorem exec_setResolution_new (h : Idle s) (hs : s.upcoming 137 = selectAnswers rom ++ bytesBits img.toList)
    (hr : DsRomOk rom) (hi : ImageOk img) (hf : resolutionField img[4] ≠ resolutionOperand s.operandA) :
    exec .setResolution s = .next
      { runActs writeBack (configured rom img (sessionStart .setResolution s)) with todo := [] } := by
  have himage : (withImage rom img (sessionStart .setResolution s)).image = img := image_of_held rfl
  rw [exec_setResolution_read h hs hr hi, runActs_newField _ _ rfl (by rw [himage]; exact hf), configured]

/-- The write session succeeds; without the persist operand the operation ends there, with it the copy session follows. -/
theorem runActs_writeBack (u : State) (hb : u.busy = true) (hs : u.upcoming 65 = selectAnswers rom') (hr : DsRomOk rom') :
    runActs writeBack u =
      if persistOperand u.bL then runActs (selectDs .copyScratchpad ++ [.succeed]) (withWritten rom' u)
      else succeed (withWritten rom' u) := by
  rw [writeBack, runActs_then _ _ _ _ hb (runActs_writeScratchpad_ok rom' u hb hs hr) rfl]
  cases hp : persistOperand u.bL with
  | true => rw [runActs_persist _ (withWritten rom' u) rfl hp, if_pos rfl]
  | false => rw [runActs_noPersist _ (withWritten rom' u) hp, if_neg (by simp)]

/-- The write session of a `SET_RESOLUTION` that changes the field, and what the persist operand decides. -/
theorem exec_setResolution_written (h : Idle s)
    (hs : s.upcoming 202 = selectAnswers rom ++ bytesBits img.toList ++ selectAnswers rom') (hr : DsRomOk rom)
    (hi : ImageOk img) (hr' : DsRomOk rom') (hf : resolutionField img[4] ≠ resolutionOperand s.operandA) :
    exec .setResolution s = .next
      { (if persistOperand s.operandB then
          runActs (selectDs .copyScratchpad ++ [.succeed])
            (withWritten rom' (configured rom img (sessionStart .setResolution s)))
        else succeed (withWritten rom' (configured rom img (sessionStart .setResolution s)))) with todo := [] } := by
  obtain ⟨hs1, hs2⟩ := upcoming_split (m := 137) (n := 65) hs (readAnswers_length rom img)
  rw [exec_setResolution_new h hs1 hr hi hf,
    runActs_writeBack (configured rom img (sessionStart .setResolution s)) rfl hs2 hr']
  rfl

/-- The write session fails. -/
theorem writeBack_fails {bits : List Bool} {tr : List LineAction} {c : Cause} (hb : u.busy = true)
    (hf : SessionFails bits tr c) (hs : u.upcoming bits.length = bits) :
    ∃ w, runActs writeBack u = fail c w ∧ Stretch bits.length tr u w := by
  obtain ⟨w, hw, hstretch, -⟩ := selectDs_fails_after .writeScratchpadCmd
    ([.enter .dataTransfer] ++ (writeImage ++ .succeedUnlessPersist :: (selectDs .copyScratchpad ++ [.succeed]))) hb hf hs
  refine ⟨w, ?_, hstretch⟩
  rw [← hw]
  simp [writeBack, writeScratchpad]

/-- The copy session ends in success after its command byte. -/
theorem runActs_copy (hb : u.busy = true) (hs : u.upcoming 65 = selectAnswers rom') (hr : DsRomOk rom') :
    runActs (selectDs .copyScratchpad ++ [.succeed]) u = succeed (selected rom' 0x48 u) := by
  rw [runActs_then _ _ _ _ hb (runActs_selectDs_ok _ rom' u hb hs hr) rfl, runActs_succeed]
  rfl

end

/-- Settles O42, by the fast path. -/
theorem setResolutionFastPath : Obligations.SetResolutionFastPath := by
  intro s rom img h hs hr hi hf
  refine ⟨_, exec_setResolution_same h hs hr hi hf, ?_⟩
  obtain ⟨hended, htrace, hanswered, hlatched, hhost, hresults, hbuf⟩ :=
    ((stretch_withImage rom img (sessionStart .setResolution s)).sessionAt rfl).succeed rfl
  exact ⟨hended, hbuf, htrace, hanswered, hlatched, hhost, hresults⟩

/-- Settles O43: the write session, and behind it the end or the copy session. -/
theorem setResolutionWritesTheField : Obligations.SetResolutionWritesTheField := by
  intro s rom rom' rom'' img cfg h hr hi hr' hr'' hf rfl
  have hrewritten := stretch_rewritten rom rom' img (sessionStart .setResolution s)
  refine ⟨fun hpersist hs => ?_, fun hpersist hs => ?_⟩
  · refine ⟨_, exec_setResolution_written h hs hr hi hr' hf, ?_⟩
    rw [persistOperand, hpersist, if_neg (by simp)]
    obtain ⟨hended, htrace, hanswered, hlatched, hhost, hresults, hbuf⟩ :=
      (hrewritten.sessionAt configured_buf).succeed rfl
    exact ⟨hended, hbuf, htrace.trans (List.append_assoc _ _ _).symm, hanswered, hlatched, hhost, hresults⟩
  · obtain ⟨hs12, hs3⟩ := upcoming_split (m := 202) (n := 65) hs (by simp [selectAnswers_length, bytesBits_length])
    refine ⟨_, exec_setResolution_written h hs12 hr hi hr' hf, ?_⟩
    rw [persistOperand, hpersist, if_pos rfl,
      runActs_copy rfl ((hrewritten.answered.upcoming 65).trans hs3) hr'']
    obtain ⟨hended, htrace, hanswered, hlatched, hhost, hresults, hbuf⟩ :=
      ((hrewritten.trans (stretch_selected rom'' 0x48 _)).sessionAt configured_buf).succeed rfl
    exact ⟨hended, hbuf, htrace.trans (by simp only [List.append_assoc]; rfl), hanswered, hlatched, hhost, hresults⟩

/-- Settles O44: the write session fails, or the copy session behind it. -/
theorem laterSessionsAbortEagerly : Obligations.LaterSessionsAbortEagerly := by
  intro s rom rom' img cfg bits tr c h hr hi hr' hf rfl hfails
  refine ⟨fun hs => ?_, fun hpersist hs => ?_⟩
  · obtain ⟨hs1, hs2⟩ := upcoming_split hs (readAnswers_length rom img)
    obtain ⟨w, hw, hstretch⟩ := writeBack_fails (u := configured rom img (sessionStart .setResolution s)) rfl hfails hs2
    refine ⟨_, exec_setResolution_new h hs1 hr hi hf, ?_⟩
    rw [hw]
    obtain ⟨hended, hcause, htrace, hanswered, hlatched, hhost, hresults⟩ :=
      (((stretch_configured rom img _).trans hstretch).sessionAt rfl).fail (c := c) rfl
    exact ⟨hended, hcause, htrace.trans (List.append_assoc _ _ _).symm, hanswered, hlatched, hhost,
      hresults.of_any_buf (by decide)⟩
  · have hrewritten := stretch_rewritten rom rom' img (sessionStart .setResolution s)
    obtain ⟨hs12, hs3⟩ := upcoming_split hs (by simp [selectAnswers_length, bytesBits_length])
    obtain ⟨w, hw, hstretch, -⟩ := selectDs_fails_after .copyScratchpad [.succeed]
      (s := withWritten rom' (configured rom img (sessionStart .setResolution s))) rfl hfails
      ((hrewritten.answered.upcoming _).trans hs3)
    refine ⟨_, exec_setResolution_written h hs12 hr hi hr' hf, ?_⟩
    rw [persistOperand, hpersist, if_pos rfl, hw]
    obtain ⟨hended, hcause, htrace, hanswered, hlatched, hhost, hresults⟩ :=
      ((hrewritten.trans hstretch).sessionAt rfl).fail (c := c) rfl
    exact ⟨hended, hcause, htrace.trans (by simp only [List.append_assoc]; rfl), hanswered, hlatched, hhost,
      hresults.of_any_buf (by decide)⟩

/-! `SET_RESOLUTION` done again (R130). -/

/-- Whatever the environment answers, a selection of U3 fails, or it reads a ROM code that U3 accepts (R120). -/
theorem selection_fails_or_reads (s : State) :
    (∃ bits tr c, SessionFails bits tr c ∧ s.upcoming bits.length = bits) ∨
    ∃ rom, DsRomOk rom ∧ s.upcoming 65 = selectAnswers rom := by
  cases ha : answer s with
  | true => exact .inl ⟨[true], _, _, .inl ⟨rfl, rfl, rfl⟩, by rw [List.length_singleton, upcoming_succ, ha]; rfl⟩
  | false =>
    obtain ⟨rom, hrom⟩ := exists_bytes 8 ((consume 1 s).upcoming 64) (upcoming_length 64 _)
    have hs : s.upcoming 65 = selectAnswers rom := by rw [upcoming_succ, ha, ← hrom, selectAnswers]
    by_cases hr : DsRomOk rom
    · exact .inr ⟨rom, hr, hs⟩
    · exact .inl ⟨_, _, _, .inr ⟨rom, hr, rfl, rfl, rfl⟩, by rw [selectAnswers_length]; exact hs⟩

/-- A scratchpad that is written back with success stands in `BUF` as it did before. -/
theorem writeBack_keeps_buf {u : State} (hb : u.busy = true) (hok : (runActs writeBack u).ok = true) :
    (runActs writeBack u).buf = u.buf := by
  obtain ⟨bits, tr, c, hf, hs⟩ | ⟨rom, hr, hs⟩ := selection_fails_or_reads u
  · obtain ⟨w, hw, -⟩ := writeBack_fails hb hf hs
    simp [hw] at hok
  rw [runActs_writeBack u hb hs hr] at hok ⊢
  cases hp : persistOperand u.bL with
  | false => rfl
  | true =>
    rw [hp, if_pos rfl] at hok
    rw [if_pos rfl]
    obtain ⟨bits, tr, c, hf', hs'⟩ | ⟨rom', hr', hs'⟩ := selection_fails_or_reads (withWritten rom u)
    · obtain ⟨w, hw, -⟩ := selectDs_fails_after .copyScratchpad [.succeed] (s := withWritten rom u) rfl hf' hs'
      simp [hw] at hok
    · rw [runActs_copy rfl hs' hr']
      rfl

/-- A `SET_RESOLUTION` that succeeded leaves in `BUF[4]` a configuration byte with the operand in its field (R127). -/
theorem setResolution_leaves_field {s t : State} (h : Idle s) (he : exec .setResolution s = .next t) (hok : t.ok = true) :
    ∃ cfg, t.buf[4] = .held cfg ∧ resolutionField cfg = resolutionOperand s.operandA := by
  obtain ⟨bits, tr, c, hf, hs⟩ | ⟨rom, hr, hs⟩ := selection_fails_or_reads s
  · obtain ⟨cmd, hprefix⟩ := selectDs_isPrefix (i := .setResolution) (by decide)
    obtain ⟨w, hw, -⟩ := selectDs_fails_after cmd [] (s := sessionStart .setResolution s) rfl hf hs
    rw [List.append_nil] at hw
    cases (exec_session_fails (by decide) h hprefix hw).symm.trans he
    simp at hok
  · obtain ⟨img, himg⟩ := exists_bytes 9 ((consume 65 s).upcoming 72) (upcoming_length 72 _)
    have hread : s.upcoming 137 = selectAnswers rom ++ bytesBits img.toList := by
      rw [show 137 = 65 + 72 from rfl, upcoming_add, hs, himg]
    by_cases hi : ImageOk img
    · by_cases hf : resolutionField img[4] = resolutionOperand s.operandA
      · rw [exec_setResolution_same h hread hr hi hf] at he
        cases he
        exact ⟨img[4], heldImage_get img 4 (by decide), hf⟩
      · rw [exec_setResolution_new h hread hr hi hf] at he
        cases he
        refine ⟨withResolution img[4] (resolutionOperand s.operandA), ?_, (resolutionFieldIsReplaced _ _).1⟩
        simp only [writeBack_keeps_buf rfl hok, configured_buf]
        simp [newImage]
        rfl
    · obtain ⟨t', ht', -, hended, -⟩ := exec_fails_at_scratchpad (i := .setResolution) (by decide) h hread hr hi
      cases ht'.symm.trans he
      exact absurd (hok.symm.trans hended.2.2.2) (by simp)

/-- Settles O47: the byte that is read back holds the operand already, so the second operation takes the fast path. -/
theorem setResolutionIsIdempotent : Obligations.SetResolutionIsIdempotent := by
  intro s s' t rom img h he hok ht hsame hs hr hi hbuf
  obtain ⟨cfg, hcfg, hfield⟩ := setResolution_leaves_field h he hok
  obtain rfl : img[4] = cfg := Content.held.inj (hbuf.symm.trans hcfg)
  obtain ⟨t', ht', hended, -, htrace, -⟩ := setResolutionFastPath t rom img ht hs hr hi (hfield.trans hsame.symm)
  exact ⟨t', ht', hended, htrace⟩

/-! The temperature (R128). -/

/-- Settles O49: the high byte stands above the low one, and its top bit is the sign. -/
theorem temperatureIsTwosComplement : Obligations.TemperatureIsTwosComplement := by
  intro msb lsb
  have hnat : (msb ++ lsb).toNat = msb.toNat * 256 + lsb.toNat := by
    rw [BitVec.toNat_append, ← Nat.shiftLeft_add_eq_or_of_lt lsb.isLt, Nat.shiftLeft_eq]
  have hsign : (msb ++ lsb).msb = msb.getLsbD 7 := by rw [BitVec.msb_append, BitVec.msb_eq_getLsbD_last]; rfl
  rw [temperatureInt, temperature, BitVec.toInt_eq_msb_cond, hsign, hnat]
  split <;> simp

end Sys2Proof.Machine
